-- ==== Sys2Proof/Word.lean ====
section
/-! DEFINITION. The word types of the ESP33 frame generator: a frame byte, a command word, a value of the time
register, a value of the failure counter, a frame address. -/

namespace Sys2Proof

/-- One byte of the frame (10_state.md rule R10). -/
abbrev Byte := BitVec 8

/-- One console command word `cmd_word` (30_encoding.md rule R49). -/
abbrev CmdWord := BitVec 16

/-- A value of the time input and of `LAST_SEND`: `TIME_W = 32` bits (00_scope.md rule R5, D9). -/
abbrev TimeReg := BitVec 32

/-- A value of `FAILCNT`: `FAILCNT_W = 8` bits (10_state.md rule R15, D11). -/
abbrev FailCount := BitVec 8

/-- An address of the one address space, 0 to 7 (20_memory.md rule R30). No other address can be written down:
the memory primitives "are total on their domain and have no other domain" (rule R32). -/
abbrev FrameAddr := Fin 8

end Sys2Proof
end

