-- ==== Sys2Proof/Config.lean ====
section
/-! DEFINITION. What an implementation fixes (the parameters of 00_scope.md rule R5, as one record a machine is built
with), the names of the fields, and the one free value of the model: what the environment does when no input has
been placed. The tables of widths and domains, the default layout and the validity checks stand in
Sys2Proof/Machine/Fields.lean. -/

namespace Sys2Proof

/-- The six fields that have a setter, numbered 1 to 6 (10_state.md rule R12, D6). The checksum is not among them:
it is "derived, not user-settable" (41_frame_model.md rule R81). -/
inductive Settable where
  /-- 1, rolling counter -/
  | ctr
  /-- 2, warn-pulse activation level -/
  | warn
  /-- 3, prefill-active flag -/
  | prefill
  /-- 4, deceleration-regulation activation level -/
  | decel
  /-- 5, deceleration-regulation unavailable flag -/
  | decelNv
  /-- 6, driver-brake-pressure-determining flag -/
  | drvbrk
  deriving DecidableEq, Repr, Inhabited

/-- The seven fields of the frame, numbered 1 to 7 (10_state.md rule R12). -/
inductive Field where
  | ctr
  | warn
  | prefill
  | decel
  | decelNv
  | drvbrk
  /-- 7, checksum -/
  | chk
  deriving DecidableEq, Repr, Inhabited

/-- Where a field lies: the byte that holds it and the shift of its lowest bit (10_state.md rule R13). -/
structure Place where
  byte : FrameAddr
  shift : Fin 8
  deriving DecidableEq, Repr, Inhabited

/-- The parameter `LAYOUT` (10_state.md rule R13): the places of the five fields whose position the source does not
give. `CTR` and `CHK` are not in it: no configuration moves them (rule R11). -/
structure Layout where
  warn : Place
  prefill : Place
  decel : Place
  decelNv : Place
  drvbrk : Place
  deriving DecidableEq, Repr, Inhabited

/-- The constants a block is built with (00_scope.md rule R5). They are straps of the hardware: no operation writes
them and a restart keeps them (D25). `LEN`, `TIME_W`, `TIME_UNIT` and `FAILCNT_W` have one value and are not here. -/
structure Config where
  /-- `LAYOUT` -/
  layout : Layout
  /-- `PERIOD`, the broadcast period in time units; 0 fires on every tick -/
  period : Nat
  /-- `MAX_FAIL`, the retry threshold -/
  maxFail : Nat
  /-- `WDT_TIMEOUT`, the watchdog timeout in time units -/
  wdtTimeout : Nat
  /-- `NET_ID`: an opaque identifier, "compared with nothing" (D22); the number stands for its identity only -/
  netId : Nat
  /-- `CONSOLE_EN`: development build (true) or deployed build (false) -/
  consoleEn : Bool
  deriving DecidableEq, Repr, Inhabited

/-- What the environment draws for one event. Every draw is one admitted next event of 44_supervisor.md rule R127,
and every admitted event is some draw's (`State.nextEvent` in Sys2Proof/Machine/Environment.lean reads it). -/
structure EnvDraw where
  /-- a power-on reset: the `reset` port (R127, "may also happen at any time") -/
  powerOn : Bool
  /-- how much later than the previous event this one is; time never decreases (R101) -/
  gap : Nat
  /-- whether the watchdog fires where the gap is exactly its limit, where both outcomes are admitted (R126) -/
  expireAtLimit : Bool
  /-- the sample of `cmd_valid`, `cmd_word` (45_console.md rule R135) -/
  cmd : Option CmdWord
  /-- `tx_ok`, the transport's answer, consulted only if an attempt is made (43_scheduler.md rule R111) -/
  txOk : Bool
  /-- the restart latency `t0 - t`, consulted only if the event restarts the block (R122, R125) -/
  latency : Nat
  deriving DecidableEq, Repr, Inhabited

/-- DESIGN CHOICE, safe (notes/assumptions/2.md). The environment's `n`-th free draw: what it does when no input has
been placed. A free value: nothing constrains it. -/
opaque Config.envDraw : Nat → EnvDraw

end Sys2Proof
end

