-- ==== Sys2Proof/Syntax.lean ====
section
/-! DEFINITION. The instructions: one constructor for each of the eight commands of the opcode map, 30_encoding.md
rule R50. -/

namespace Sys2Proof

/-- A console command. A setter's operand is a natural number, as in 41_frame_model.md rule R67; the command word
carries 0 to 255 of them (30_encoding.md rule R51), which `Instr.wellFormed` says. -/
inductive Instr where
  /-- `HELP` (45_console.md rule R137) -/
  | help
  /-- `STATUS` (45_console.md rule R138) -/
  | status
  /-- `SET_CTR v` (41_frame_model.md rule R68) -/
  | setCtr (v : Nat)
  /-- `SET_WARN v` (rule R69) -/
  | setWarn (v : Nat)
  /-- `SET_PREFILL v` (rule R70) -/
  | setPrefill (v : Nat)
  /-- `SET_DECEL v` (rule R71) -/
  | setDecel (v : Nat)
  /-- `SET_DECEL_NV v` (rule R72) -/
  | setDecelNv (v : Nat)
  /-- `SET_DRVBRK v` (rule R73) -/
  | setDrvbrk (v : Nat)
  deriving DecidableEq, Repr, Inhabited

end Sys2Proof
end

