-- ==== Sys2Proof/WellFormed.lean ====
section
/-! DEFINITION. Which instructions a command word can carry. The checks on a configuration (`Layout.wellFormed`,
`Config.valid`) stand in Sys2Proof/Machine/Fields.lean. -/

namespace Sys2Proof

/-- The operand fits `VAL`, 8 bits: "a number greater than 255 typed at the console cannot be carried by the word"
(30_encoding.md rule R51). -/
def Instr.wellFormed : Instr → Bool
  | .help => true
  | .status => true
  | .setCtr v => decide (v ≤ 255)
  | .setWarn v => decide (v ≤ 255)
  | .setPrefill v => decide (v ≤ 255)
  | .setDecel v => decide (v ≤ 255)
  | .setDecelNv v => decide (v ≤ 255)
  | .setDrvbrk v => decide (v ≤ 255)

end Sys2Proof
end

