-- ==== Sys2Proof/Decode.lean ====
section
/-! DEFINITION. The decoder of command words, total and rejecting by name; the encoder; the opcode map as mask and
match rows; and the host's entry `decodeTableWord`. 30_encoding.md rules R49 to R52 and R59. -/

namespace Sys2Proof

/-- Why a word is an unrecognized command (30_encoding.md rule R52). All three have the same effect
(45_console.md rule R140); the name says which clause of the rule holds. -/
inductive Reject where
  /-- `OP` is 0 or 4 to 15 -/
  | reservedOp
  /-- `OP` is 1 or 2 with a bit of 11:0 set -/
  | operandNotZero
  /-- `OP` is 3 with `FSEL` 0 or 7 to 15 -/
  | reservedField
  deriving DecidableEq, Repr

/-- What a word decodes to: "one of the eight commands of R50, or `unrecognized`" (30_encoding.md rule R59). -/
inductive Decoded where
  | instr (i : Instr)
  | unrecognized (why : Reject)
  deriving DecidableEq, Repr

/-- `OP`, bits 15:12 (30_encoding.md rule R49). -/
def opOf (w : CmdWord) : BitVec 4 := w.extractLsb' 12 4

/-- `FSEL`, bits 11:8 (30_encoding.md rule R49). -/
def fselOf (w : CmdWord) : BitVec 4 := w.extractLsb' 8 4

/-- `VAL`, bits 7:0 (30_encoding.md rule R49). -/
def valOf (w : CmdWord) : BitVec 8 := w.extractLsb' 0 8

/-- The operand `v = zext(cmd_word[7:0])`, "with no scaling and no sign" (30_encoding.md rule R51). -/
def operandOf (w : CmdWord) : Nat := (valOf w).toNat

/-- A command without an operand: `FSEL` and `VAL` must be 0 (30_encoding.md rule R49). -/
def decodePlain (w : CmdWord) (i : Instr) : Decoded :=
  if fselOf w = 0 ∧ valOf w = 0 then .instr i else .unrecognized .operandNotZero

/-- A `SET` word: `FSEL` is the field's number, 1 to 6 (30_encoding.md rule R50). -/
def decodeSet (w : CmdWord) : Decoded :=
  match (fselOf w).toNat with
  | 1 => .instr (.setCtr (operandOf w))
  | 2 => .instr (.setWarn (operandOf w))
  | 3 => .instr (.setPrefill (operandOf w))
  | 4 => .instr (.setDecel (operandOf w))
  | 5 => .instr (.setDecelNv (operandOf w))
  | 6 => .instr (.setDrvbrk (operandOf w))
  | _ => .unrecognized .reservedField

/-- The decoder: 30_encoding.md rules R49, R50 and R52. -/
def decode (w : CmdWord) : Decoded :=
  match (opOf w).toNat with
  | 1 => decodePlain w .help
  | 2 => decodePlain w .status
  | 3 => decodeSet w
  | _ => .unrecognized .reservedOp

/-- The word of a `SET`: `OP` 3, the field's number, the value (30_encoding.md rules R49, R50). -/
def setWord (fsel : BitVec 4) (v : Nat) : CmdWord := (3#4 ++ fsel ++ BitVec.ofNat 8 v : BitVec 16)

/-- The encoder: the word of an instruction, from the table of 30_encoding.md rule R50. -/
def encode : Instr → CmdWord
  | .help => 0x1000#16
  | .status => 0x2000#16
  | .setCtr v => setWord 1#4 v
  | .setWarn v => setWord 2#4 v
  | .setPrefill v => setWord 3#4 v
  | .setDecel v => setWord 4#4 v
  | .setDecelNv v => setWord 5#4 v
  | .setDrvbrk v => setWord 6#4 v

/-- A row of the opcode map: "a word `w` is the instruction of a row when `(w & mask) = match`" (R50). -/
structure OpcodeRow where
  matchBits : CmdWord
  mask : CmdWord
  deriving DecidableEq, Repr

/-- The row's test on a word. -/
def OpcodeRow.selects (r : OpcodeRow) (w : CmdWord) : Bool := w &&& r.mask == r.matchBits

/-- The match and mask of an instruction's row (30_encoding.md rule R50). -/
def Instr.row : Instr → OpcodeRow
  | .help => ⟨0x1000#16, 0xFFFF#16⟩
  | .status => ⟨0x2000#16, 0xFFFF#16⟩
  | .setCtr _ => ⟨0x3100#16, 0xFF00#16⟩
  | .setWarn _ => ⟨0x3200#16, 0xFF00#16⟩
  | .setPrefill _ => ⟨0x3300#16, 0xFF00#16⟩
  | .setDecel _ => ⟨0x3400#16, 0xFF00#16⟩
  | .setDecelNv _ => ⟨0x3500#16, 0xFF00#16⟩
  | .setDrvbrk _ => ⟨0x3600#16, 0xFF00#16⟩

/-- The eight rows, in the table's order. -/
def opcodeRows : List OpcodeRow :=
  [Instr.row .help, Instr.row .status, Instr.row (.setCtr 0), Instr.row (.setWarn 0), Instr.row (.setPrefill 0),
    Instr.row (.setDecel 0), Instr.row (.setDecelNv 0), Instr.row (.setDrvbrk 0)]

/-- The instruction the decoder reads from a word of `nbits` bits given as a number. Every command has "this one
length" of 16 bits (30_encoding.md rule R49), so any other length, and a number that is no 16-bit word, is refused. -/
def decodeTableWord (nbits w : Nat) : Option Instr :=
  if nbits = 16 ∧ w < 65536 then
    match decode (BitVec.ofNat 16 w) with
    | .instr i => some i
    | .unrecognized _ => none
  else none

end Sys2Proof
end

