-- ==== Sys2Proof/Machine/Fields.lean ====
section
/-! DEFINITION. The constants of the fields (number, width, domain, place, mask), the default layout, the conditions
on a layout and on a configuration, and the reference configuration. 10_state.md rules R11 to R13, 30_encoding.md
rules R46 and R47, 00_scope.md rules R5 and R6. -/

namespace Sys2Proof

/-- The settable field as one of the seven fields. -/
def Settable.field : Settable → Field
  | .ctr => .ctr
  | .warn => .warn
  | .prefill => .prefill
  | .decel => .decel
  | .decelNv => .decelNv
  | .drvbrk => .drvbrk

/-- The field number (10_state.md rule R12, D6). -/
def Field.number : Field → Nat
  | .ctr => 1
  | .warn => 2
  | .prefill => 3
  | .decel => 4
  | .decelNv => 5
  | .drvbrk => 6
  | .chk => 7

/-- The field's name in the source (10_state.md rule R12). -/
def Field.longName : Field → String
  | .ctr => "rolling counter"
  | .warn => "warn-pulse activation level"
  | .prefill => "prefill-active flag"
  | .decel => "deceleration-regulation activation level"
  | .decelNv => "deceleration-regulation unavailable flag"
  | .drvbrk => "driver-brake-pressure-determining flag"
  | .chk => "checksum"

/-- The width `w_f` (10_state.md rule R12). -/
def Field.width : Field → Nat
  | .ctr => 4
  | .warn => 4
  | .prefill => 1
  | .decel => 4
  | .decelNv => 1
  | .drvbrk => 1
  | .chk => 8

/-- The domain bound `max_f` of a settable field (10_state.md rule R12). `WARN` stops at 9. -/
def Settable.maxVal : Settable → Nat
  | .ctr => 15
  | .warn => 9
  | .prefill => 1
  | .decel => 15
  | .decelNv => 1
  | .drvbrk => 1

/-- The six settable fields in the order of their numbers. -/
def allSettable : List Settable := [.ctr, .warn, .prefill, .decel, .decelNv, .drvbrk]

/-- The seven fields in the order of their numbers. -/
def allFields : List Field := [.ctr, .warn, .prefill, .decel, .decelNv, .drvbrk, .chk]

/-- `(byte_f, shift_f)`: `CTR` and `CHK` where the source fixes them (10_state.md rule R11), the others where the
layout puts them (rule R13). -/
def Layout.place (L : Layout) : Field → Place
  | .ctr => ⟨1, 0⟩
  | .warn => L.warn
  | .prefill => L.prefill
  | .decel => L.decel
  | .decelNv => L.decelNv
  | .drvbrk => L.drvbrk
  | .chk => ⟨0, 0⟩

/-- `byte_f`. -/
def Layout.byteOf (L : Layout) (f : Field) : FrameAddr := (L.place f).byte

/-- `shift_f`. -/
def Layout.shiftOf (L : Layout) (f : Field) : Nat := (L.place f).shift.val

/-- `(2^w_f) - 1` as a byte: the mask of a field before it is shifted into place. -/
def Field.lowMask (f : Field) : Byte := BitVec.ofNat 8 (2 ^ f.width - 1)

/-- `mask_f = ((2^w_f) - 1) << shift_f`, an 8-bit value (30_encoding.md rule R46). -/
def Layout.mask (L : Layout) (f : Field) : Byte := f.lowMask <<< L.shiftOf f

/-- The bits of byte `a` that some field occupies. -/
def Layout.usedBits (L : Layout) (a : FrameAddr) : Byte :=
  allFields.foldl (fun acc f => if L.byteOf f = a then acc ||| L.mask f else acc) 0

/-- The reserved bits of byte `a`: those "that no field occupies" (10_state.md rule R14). -/
def Layout.reservedBits (L : Layout) (a : FrameAddr) : Byte := ~~~ L.usedBits a

/-- Condition (1) of 30_encoding.md rule R47 for one placed field: not in byte 0, and inside one byte. -/
def Layout.fits (L : Layout) (f : Field) : Bool :=
  L.byteOf f != 0 && decide (L.shiftOf f + f.width ≤ 8)

/-- Condition (3) of 30_encoding.md rule R47 for two fields: their bit sets
`{(byte, b) : shift <= b < shift + w}` share no bit. -/
def Layout.apart (L : Layout) (f g : Field) : Bool :=
  L.byteOf f != L.byteOf g || decide (L.shiftOf f + f.width ≤ L.shiftOf g)
    || decide (L.shiftOf g + g.width ≤ L.shiftOf f)

/-- A well-formed layout, 30_encoding.md rule R47. Condition (2), the places of `CHK` and `CTR`, and `byte_f <= 7`
hold by construction. -/
def Layout.wellFormed (L : Layout) : Bool :=
  allSettable.all (fun f => L.fits f.field) && allFields.all (fun f => allFields.all (fun g => f == g || L.apart f g))

/-- A valid configuration (00_scope.md rule R6): every constraint of the table of rule R5 holds and the layout is
well-formed. The bound on `WDT_TIMEOUT` from above is its port's and `WDT_LIMIT`'s width
(notes/assumptions/7.md). -/
def Config.valid (c : Config) : Bool :=
  decide (c.period < 2 ^ 32) && decide (1 ≤ c.maxFail) && decide (c.maxFail ≤ 255) && decide (1 ≤ c.wdtTimeout)
    && decide (c.wdtTimeout < 2 ^ 32) && c.layout.wellFormed

/-- The default layout of 30_encoding.md rule R46, a placeholder of the spec's (D1) and "not the layout of any real
network". No statement rests on it but where it says so. -/
def Layout.default : Layout :=
  { warn := ⟨1, 4⟩, prefill := ⟨2, 0⟩, decel := ⟨2, 1⟩, decelNv := ⟨2, 5⟩, drvbrk := ⟨2, 6⟩ }

/-- The reference test configuration `CFG_REF` (00_scope.md section 4). DESIGN CHOICE, unsafe
(notes/assumptions/1.md): the reset state is built with it, `NET_ID` ("any constant") being 0 there. -/
def Config.reference : Config :=
  { layout := Layout.default, period := 200, maxFail := 7, wdtTimeout := 1000, netId := 0, consoleEn := true }

end Sys2Proof
end

