-- ==== Sys2Proof/Machine/Memory.lean ====
section
/-! DEFINITION. The frame buffer as memory: a list of (address, byte) cells in one canonical form, its read and its
write. 10_state.md rule R10, 20_memory.md rules R30 to R32. -/

namespace Sys2Proof.Machine

/-- The content of the frame buffer: addresses strictly rising, all below 8, and no cell that holds what an unlisted
address reads as (`Memory.wf`). -/
abbrev Memory := List Host.Cell

/-- What an unlisted address reads as: the reset content of every byte, "all fields zeroed", reserved bits zero
(10_state.md rule R24). -/
def unlistedByte : Byte := 0x00#8

/-- The eight addresses, in the order of the sequence (20_memory.md rules R30, R33). -/
def frameAddrs : List FrameAddr := [0, 1, 2, 3, 4, 5, 6, 7]

/-- The byte at an address. -/
def Memory.read : Memory → Nat → Byte
  | [], _ => unlistedByte
  | (b, v) :: rest, a => if b = a then v else Memory.read rest a

/-- The cell of one address, or none where it would hold what an unlisted address reads as. -/
def Memory.cellOf (f : FrameAddr → Byte) (a : FrameAddr) : Option Host.Cell :=
  if f a = unlistedByte then none else some (a.val, f a)

/-- The canonical memory with given contents. -/
def Memory.ofBytes (f : FrameAddr → Byte) : Memory := frameAddrs.filterMap (Memory.cellOf f)

/-- Writing one byte: the canonical memory with that byte replaced. -/
def Memory.write (m : Memory) (a : FrameAddr) (v : Byte) : Memory :=
  Memory.ofBytes fun b => if b = a then v else m.read b.val

/-- The addresses rise strictly. -/
def Memory.rising : Memory → Bool
  | [] => true
  | [_] => true
  | (a, _) :: (b, w) :: rest => decide (a < b) && Memory.rising ((b, w) :: rest)

/-- The canonical form: addresses strictly rising and below 8, no cell equal to what an unlisted address reads as. -/
def Memory.wf (m : Memory) : Bool :=
  Memory.rising m && m.all fun c => decide (c.1 < 8) && c.2 != unlistedByte

end Sys2Proof.Machine
end

