-- ==== Sys2Proof/Machine/State.lean ====
section
/-! DEFINITION. The state of the machine, the outputs it emits, the reasons a step can stop, and the state after
reset. 10_state.md, 30_encoding.md section 5, 00_scope.md section 6. -/

namespace Sys2Proof.Machine

/-- `SCHED`, the state of the scheduler's state machine (10_state.md rule R17). -/
inductive Sched where
  | idle
  | due
  | faulted
  deriving DecidableEq, Repr, Inhabited

/-- The loop phase, the analogue of a program counter (10_state.md rule R22). -/
inductive LoopPhase where
  /-- the scheduler checks its due condition -/
  | a
  /-- one console command is served -/
  | b
  /-- the heartbeat -/
  | c
  deriving DecidableEq, Repr, Inhabited

/-- The cause a `RESTART` output carries (60_exceptions.md rule R150). -/
inductive Cause where
  /-- error class 3 -/
  | exhausted
  /-- error class 4 -/
  | watchdog
  deriving DecidableEq, Repr

/-- A row of the `HELP_INFO` record: a field's number, its name and its valid range (45_console.md rule R137). -/
structure HelpRow where
  number : Nat
  name : String
  low : Nat
  high : Nat
  deriving DecidableEq, Repr

/-- A console output record (30_encoding.md rule R56). -/
inductive Record where
  | helpInfo (rows : List HelpRow)
  | statusInfo (ctr warn prefill decel decelNv drvbrk chk : Byte)
  | setOk (f : Settable) (v : Nat)
  | setRejected (f : Settable) (v : Nat)
  | unrecognized (w : CmdWord)
  | txFailed (n : FailCount)
  deriving DecidableEq, Repr

/-- An output event (00_scope.md section 6, "Outputs"). -/
inductive Output where
  /-- a transmit request: the identifier, the length, the bytes with `FRAME[0]` first (30_encoding.md rule R57) -/
  | tx (id : Nat) (len : BitVec 4) (bytes : List Byte)
  /-- a console record -/
  | con (r : Record)
  /-- the heartbeat, a pulse on `wdt_feed` -/
  | hb
  /-- `arm(timeout)` to the watchdog -/
  | wdtArm (timeout : TimeReg)
  /-- a restart and its cause -/
  | restart (cause : Cause)
  deriving DecidableEq, Repr

/-- Why the machine stops with a fault: there is no such reason. "There is no other error" (60_exceptions.md rule
R155), "no access can be out of range and no address-fault exists" (20_memory.md rule R32): the four error classes are
handled in place or end in a restart, and a restart is a next state. Nobody raises it; that is safe. -/
inductive Fault where
  deriving DecidableEq, Repr

/-- Why the machine gives a step no meaning. -/
inductive Refusal where
  /-- An instruction whose meaning has not been written yet, by its mnemonic. No arm raises it; safe. -/
  | notModelled (mnemonic : String)
  /-- Raised by `step`: the block would be built with an invalid configuration, "a model refuses it"
  (00_scope.md rule R6, 93_implementation_defined.md U2, U3); safe. -/
  | invalidConfiguration
  /-- Raised by `step`: an event other than a power-on reset in a state that no run reaches (a field out of its
  domain, a reserved bit set, `FAILCNT >= MAX_FAIL`, `SCHED` not Idle, the watchdog not armed: 10_state.md rule R26,
  93_implementation_defined.md U8, "refuse"); safe. -/
  | unreachableState
  deriving DecidableEq, Repr

/-- The state. The first eight fields are the spec's (10_state.md section 1 and rule R24), the others the model's
own. -/
structure State where
  /-- `FRAME[0..7]` (rule R10) -/
  frame : Memory
  /-- `FAILCNT` (rule R15) -/
  failcnt : FailCount
  /-- `LAST_SEND` (rule R16) -/
  lastSend : TimeReg
  /-- `SCHED` (rule R17) -/
  sched : Sched
  /-- the loop phase (rules R22, R24) -/
  phase : LoopPhase
  /-- `WDT_ARMED`, the watchdog's (rule R18) -/
  wdtArmed : Bool
  /-- `WDT_LIMIT`, the watchdog's (rule R18) -/
  wdtLimit : TimeReg
  /-- `WDT_FED_AT`, the watchdog's: an abstract time (rule R18) -/
  wdtFedAt : Nat
  /-- model's own: the constants the block was built with (00_scope.md rule R5); never written -/
  cfg : Config
  /-- model's own, the environment's: the abstract time `t_prev` of the previous event (44_supervisor.md rule R127) -/
  time : Nat
  /-- model's own, the environment's: the draws placed for the next events, the next one first -/
  inputs : List EnvDraw
  /-- model's own: how many free draws of the environment have been taken -/
  draws : Nat
  /-- model's own: the output list of the latest tick or expiry, in emission order (00_scope.md section 6) -/
  out : List Output
  /-- model's own: what the reset sequence of the latest event emitted, after `out` (notes/assumptions/5.md) -/
  resetOut : List Output
  deriving DecidableEq, Repr

/-- The machine right after its first `RESET(t0)` (10_state.md rule R24, 70_reset_and_hazards.md rule R171), with
`t0 = 0` (which rule R172 admits for the first reset; notes/assumptions/3.md) and the reference configuration
(notes/assumptions/1.md). -/
def State.reset : State where
  frame := []
  failcnt := 0
  lastSend := 0
  sched := .idle
  phase := .a
  wdtArmed := true
  wdtLimit := BitVec.ofNat 32 Config.reference.wdtTimeout
  wdtFedAt := 0
  cfg := Config.reference
  time := 0
  inputs := []
  draws := 0
  out := []
  resetOut := [.wdtArm (BitVec.ofNat 32 Config.reference.wdtTimeout)]

end Sys2Proof.Machine
end

