-- ==== Sys2Proof/Machine/Ops.lean ====
section
/-! DEFINITION. The named operations: the memory primitives, the emission of outputs, the watchdog's operations, the
reset sequence, and the one trap-like event of the block, the restart. There is no return from it (60_exceptions.md
rule R159). -/

namespace Sys2Proof.Machine

/-- `T(t) = t mod 2^TIME_W` (43_scheduler.md rule R101). -/
def timeReg (t : Nat) : TimeReg := BitVec.ofNat 32 t

/-- `MemRead(a, 1)`: `FRAME[a]` (00_scope.md section 6). -/
def State.memRead (s : State) (a : FrameAddr) : Byte := s.frame.read a.val

/-- `MemWrite(a, 1, v)`: `FRAME[a] <- v` (00_scope.md section 6). -/
def State.memWrite (s : State) (a : FrameAddr) (v : Byte) : State := { s with frame := s.frame.write a v }

/-- The eight bytes, `FRAME[0]` first (20_memory.md rule R33). -/
def State.frameBytes (s : State) : List Byte := frameAddrs.map s.memRead

/-- `emit X` (00_scope.md section 6): append to the event's output list. -/
def State.emit (s : State) (o : Output) : State := { s with out := s.out ++ [o] }

/-- `emit CON(record)`. -/
def State.emitCon (s : State) (r : Record) : State := s.emit (.con r)

/-- `HEARTBEAT(t)`: feed the watchdog (44_supervisor.md rule R120). -/
def State.heartbeat (s : State) (t : Nat) : State := { s.emit .hb with wdtFedAt := t }

/-- `WDT_ARM(timeout, t)` (44_supervisor.md rule R124). Its output is one of the reset sequence. -/
def State.wdtArm (s : State) (timeout : Nat) (t : Nat) : State :=
  { s with
    wdtArmed := true
    wdtLimit := BitVec.ofNat 32 timeout
    wdtFedAt := t
    resetOut := s.resetOut ++ [.wdtArm (BitVec.ofNat 32 timeout)] }

/-- `RESET(t0)`: the reset sequence (70_reset_and_hazards.md rule R171). The configuration and the environment's own
fields are untouched, but that the event is now at `t0`. -/
def State.resetSequence (s : State) (t0 : Nat) : State :=
  { s with
    frame := []
    failcnt := 0
    lastSend := timeReg t0
    sched := .idle
    phase := .a
    time := t0 }.wdtArm s.cfg.wdtTimeout t0

/-- The trap entry: emit the cause and reset, with nothing saved (60_exceptions.md rule R158). -/
def State.restart (s : State) (cause : Cause) (t0 : Nat) : State := (s.emit (.restart cause)).resetSequence t0

/-- `FORCE_RESTART`, the controlled restart of error class 3 (44_supervisor.md rule R122). -/
def State.forceRestart (s : State) (t0 : Nat) : State := s.restart .exhausted t0

/-- `WDT_EXPIRE`, the uncontrolled restart of error class 4 (44_supervisor.md rule R125). -/
def State.wdtExpire (s : State) (t0 : Nat) : State := s.restart .watchdog t0

/-- The error class a cause stands for (60_exceptions.md rule R150). -/
def Cause.errorClass : Cause → Nat
  | .exhausted => 3
  | .watchdog => 4

end Sys2Proof.Machine
end

