-- ==== Sys2Proof/Machine/Operands.lean ====
section
/-! DEFINITION. The field primitives `GETF`, `PUTF`, `SETF` and the seven getters. 41_frame_model.md sections 1
and 3. A command's operand `VAL` is read in Sys2Proof/Decode.lean (30_encoding.md rule R51). -/

namespace Sys2Proof.Machine

/-- `GETF(f) = (MemRead(byte_f, 1) >> shift_f) & ((2^w_f) - 1)` (41_frame_model.md rule R65). -/
def State.getF (s : State) (f : Field) : Byte :=
  (s.memRead (s.cfg.layout.byteOf f) >>> s.cfg.layout.shiftOf f) &&& f.lowMask

/-- `PUTF(f, v)`, the unchecked read-modify-write of one byte (41_frame_model.md rule R66). -/
def State.putF (s : State) (f : Settable) (v : Nat) : State :=
  let L := s.cfg.layout
  let old := s.memRead (L.byteOf f.field)
  s.memWrite (L.byteOf f.field)
    ((old &&& ~~~ L.mask f.field) ||| ((BitVec.ofNat 8 v <<< L.shiftOf f.field) &&& L.mask f.field))

/-- The domain test `v <= max_f`, "on the whole of `v`, before any truncation" (41_frame_model.md rule R67). -/
def accepts (f : Settable) (v : Nat) : Bool := decide (v ≤ f.maxVal)

/-- `SETF(f, v)`, the range-checked setter (41_frame_model.md rule R67). A value out of the domain is error class 1
(60_exceptions.md rule R151): a record and no other change. -/
def State.setF (s : State) (f : Settable) (v : Nat) : State :=
  if accepts f v then (s.putF f v).emitCon (.setOk f v) else s.emitCon (.setRejected f v)

/-- `GET_CTR`, port `f_ctr` (41_frame_model.md rule R74). -/
def State.getCtr (s : State) : BitVec 4 := (s.getF .ctr).setWidth 4

/-- `GET_WARN`, port `f_warn` (rule R75). -/
def State.getWarn (s : State) : BitVec 4 := (s.getF .warn).setWidth 4

/-- `GET_PREFILL`, port `f_prefill` (rule R76). -/
def State.getPrefill (s : State) : BitVec 1 := (s.getF .prefill).setWidth 1

/-- `GET_DECEL`, port `f_decel` (rule R77). -/
def State.getDecel (s : State) : BitVec 4 := (s.getF .decel).setWidth 4

/-- `GET_DECEL_NV`, port `f_decel_nv` (rule R78). -/
def State.getDecelNv (s : State) : BitVec 1 := (s.getF .decelNv).setWidth 1

/-- `GET_DRVBRK`, port `f_drvbrk` (rule R79). -/
def State.getDrvbrk (s : State) : BitVec 1 := (s.getF .drvbrk).setWidth 1

/-- `GET_CHK`, port `f_chk` (rule R80): the stored byte, which may be stale. -/
def State.getChk (s : State) : Byte := s.getF .chk

end Sys2Proof.Machine
end

