-- ==== Sys2Proof/Machine/Console.lean ====
section
/-! DEFINITION. The meanings of the two informational commands, `HELP` and `STATUS`, and the diagnostic of an
unrecognized command. 45_console.md. -/

namespace Sys2Proof.Machine

/-- The row of a settable field in the help listing. -/
def helpRow (f : Settable) : HelpRow :=
  { number := f.field.number, name := f.field.longName, low := 0, high := f.maxVal }

/-- The constant content of `HELP_INFO`: fields 1 to 6 with their ranges (45_console.md rule R137). -/
def helpTable : List HelpRow := allSettable.map helpRow

/-- `HELP` (45_console.md rule R137). -/
def execHelp (s : State) : Host.Outcome State Fault Refusal := .next (s.emitCon (.helpInfo helpTable))

/-- The `STATUS_INFO` record: the seven fields as stored (45_console.md rule R138). -/
def State.statusRecord (s : State) : Record :=
  .statusInfo (s.getF .ctr) (s.getF .warn) (s.getF .prefill) (s.getF .decel) (s.getF .decelNv) (s.getF .drvbrk)
    (s.getF .chk)

/-- `STATUS` (45_console.md rule R138). -/
def execStatus (s : State) : Host.Outcome State Fault Refusal := .next (s.emitCon s.statusRecord)

/-- `UNRECOGNIZED(w)`: one record, no state read or written (45_console.md rule R140). -/
def State.unrecognized (s : State) (w : CmdWord) : State := s.emitCon (.unrecognized w)

end Sys2Proof.Machine
end

