-- ==== Sys2Proof/Machine/Setters.lean ====
section
/-! DEFINITION. The meanings of the six set commands, each `SETF` of its field. 41_frame_model.md section 2. -/

namespace Sys2Proof.Machine

/-- `SET_CTR v` (41_frame_model.md rule R68). -/
def execSetCtr (v : Nat) (s : State) : Host.Outcome State Fault Refusal := .next (s.setF .ctr v)

/-- `SET_WARN v` (rule R69). -/
def execSetWarn (v : Nat) (s : State) : Host.Outcome State Fault Refusal := .next (s.setF .warn v)

/-- `SET_PREFILL v` (rule R70). -/
def execSetPrefill (v : Nat) (s : State) : Host.Outcome State Fault Refusal := .next (s.setF .prefill v)

/-- `SET_DECEL v` (rule R71). -/
def execSetDecel (v : Nat) (s : State) : Host.Outcome State Fault Refusal := .next (s.setF .decel v)

/-- `SET_DECEL_NV v` (rule R72). -/
def execSetDecelNv (v : Nat) (s : State) : Host.Outcome State Fault Refusal := .next (s.setF .decelNv v)

/-- `SET_DRVBRK v` (rule R73). -/
def execSetDrvbrk (v : Nat) (s : State) : Host.Outcome State Fault Refusal := .next (s.setF .drvbrk v)

end Sys2Proof.Machine
end

