-- ==== Sys2Proof/Machine/Dispatch.lean ====
section
/-! DEFINITION. One arm per instruction. -/

namespace Sys2Proof.Machine

def exec (i : Instr) (s : State) : Host.Outcome State Fault Refusal :=
  match i with
  | .help => Sys2Proof.Machine.execHelp s
  | .status => Sys2Proof.Machine.execStatus s
  | .setCtr v => Sys2Proof.Machine.execSetCtr v s
  | .setWarn v => Sys2Proof.Machine.execSetWarn v s
  | .setPrefill v => Sys2Proof.Machine.execSetPrefill v s
  | .setDecel v => Sys2Proof.Machine.execSetDecel v s
  | .setDecelNv v => Sys2Proof.Machine.execSetDecelNv v s
  | .setDrvbrk v => Sys2Proof.Machine.execSetDrvbrk v s

end Sys2Proof.Machine
end

