-- ==== Sys2Proof/Machine/Flags.lean ====
section
/-! DEFINITION. The conditions the machine tests. The block has no status flags and no condition codes (10_state.md
rule R23): nothing here is stored. -/

namespace Sys2Proof.Machine

/-- `elapsed = (now - LAST_SEND) mod 2^TIME_W` (43_scheduler.md rule R102). -/
def State.elapsed (s : State) (now : TimeReg) : TimeReg := now - s.lastSend

/-- `due = (elapsed >= PERIOD)`, "true at equality" (43_scheduler.md rule R103). -/
def State.isDue (s : State) (now : TimeReg) : Bool := decide (s.cfg.period ≤ (s.elapsed now).toNat)

/-- `FAILCNT >= MAX_FAIL` (43_scheduler.md rule R107). -/
def State.thresholdReached (s : State) : Bool := decide (s.cfg.maxFail ≤ s.failcnt.toNat)

/-- Every field holds a value of its domain (41_frame_model.md rule R85). -/
def State.fieldsInDomain (s : State) : Bool := allSettable.all fun f => decide ((s.getF f.field).toNat ≤ f.maxVal)

/-- Every reserved bit is 0 (10_state.md rule R14). -/
def State.reservedZero (s : State) : Bool := frameAddrs.all fun a => s.memRead a &&& s.cfg.layout.reservedBits a == 0

/-- What 10_state.md rule R26 says of every reachable state at a tick boundary, with the loop phase of rule R22.
In any other state no event but a power-on reset has a meaning (93_implementation_defined.md U8). -/
def State.atTickBoundary (s : State) : Bool :=
  s.fieldsInDomain && s.reservedZero && decide (s.failcnt.toNat < s.cfg.maxFail) && s.sched == .idle && s.phase == .a
    && s.wdtArmed

/-- Whether the watchdog fires at time `t`: it must above its limit, it cannot below, and at the limit the
environment chooses (44_supervisor.md rules R125, R126). -/
def State.watchdogFires (s : State) (t : Nat) (expireAtLimit : Bool) : Bool :=
  s.wdtArmed && (decide (s.wdtLimit.toNat < t - s.wdtFedAt)
    || (decide (t - s.wdtFedAt = s.wdtLimit.toNat) && expireAtLimit))

end Sys2Proof.Machine
end

