-- ==== Sys2Proof/Machine/Environment.lean ====
section
/-! DEFINITION. The environment: how the next event follows from what it draws. 44_supervisor.md rule R127. -/

namespace Sys2Proof.Machine

/-- An event of a run (70_reset_and_hazards.md rule R187). `t0` is the process start time drawn for the restart the
event may end in. -/
inductive Event where
  /-- `TICK(t, cmd, ok)` (43_scheduler.md rule R112) -/
  | tick (t : Nat) (cmd : Option CmdWord) (ok : Bool) (t0 : Nat)
  /-- `WDT_EXPIRE(t)` (44_supervisor.md rule R125) -/
  | wdtExpire (t t0 : Nat)
  /-- `RESET(t0)`, at power-on (70_reset_and_hazards.md rule R171) -/
  | reset (t0 : Nat)
  deriving DecidableEq, Repr

/-- The event a draw stands for in a state: at `time + gap`, a power-on reset, an expiry or a tick. -/
def State.nextEvent (s : State) (d : EnvDraw) : Event :=
  let t := s.time + d.gap
  if d.powerOn then .reset t
  else if s.watchdogFires t d.expireAtLimit then .wdtExpire t (t + d.latency)
  else .tick t d.cmd d.txOk (t + d.latency)

/-- The draw for the next event: the first one placed, or, where none is, the environment's next free draw. -/
def State.nextDraw (s : State) : EnvDraw :=
  match s.inputs with
  | d :: _ => d
  | [] => Config.envDraw s.draws

/-- The state once that draw has been taken. -/
def State.drawTaken (s : State) : State :=
  match s.inputs with
  | _ :: rest => { s with inputs := rest }
  | [] => { s with draws := s.draws + 1 }

/-- The state as an event begins: its output lists are empty. -/
def State.beginEvent (s : State) : State := { s with out := [], resetOut := [] }

end Sys2Proof.Machine
end

