-- ==== Sys2Proof/Machine/Codec.lean ====
section
/-! DEFINITION. FrameCodec: `CTR_ADV`, `XORSUM` and `ENCODE`. 42_frame_codec.md. -/

namespace Sys2Proof.Machine

/-- `CTR_ADV`: `PUTF(1, (GETF(1) + 1) mod 16)` (42_frame_codec.md rule R91). -/
def State.ctrAdv (s : State) : State := s.putF .ctr (((s.getF .ctr).toNat + 1) % 16)

/-- `FRAME[1] ^ ... ^ FRAME[7]` (42_frame_codec.md rule R92). -/
def State.xorOfBytes (s : State) : Byte :=
  s.memRead 1 ^^^ s.memRead 2 ^^^ s.memRead 3 ^^^ s.memRead 4 ^^^ s.memRead 5 ^^^ s.memRead 6 ^^^ s.memRead 7

/-- `XORSUM`: store the XOR of bytes 1 to 7 into byte 0 (42_frame_codec.md rule R92). -/
def State.xorsum (s : State) : State := s.memWrite 0 s.xorOfBytes

/-- `ENCODE`: `CTR_ADV`, then `XORSUM`, "in fixed order" (42_frame_codec.md rule R90). -/
def State.encodeFrame (s : State) : State := s.ctrAdv.xorsum

end Sys2Proof.Machine
end

