-- ==== Sys2Proof/Machine/Scheduler.lean ====
section
/-! DEFINITION. BroadcastScheduler, phase (a) of a tick: the due test, the attempt, the failure counter and the
threshold. 43_scheduler.md sections 2 and 3. -/

namespace Sys2Proof.Machine

/-- The payload length `LEN = 8`, fixed by the source (00_scope.md rule R5). -/
def payloadLength : BitVec 4 := 8

/-- The transmit request of the frame as it stands (30_encoding.md rule R57). -/
def State.txRequest (s : State) : Output := .tx s.cfg.netId payloadLength s.frameBytes

/-- A successful send: `FAILCNT <- 0`, `SCHED <- Idle` (43_scheduler.md rule R105). -/
def State.sendSucceeded (s : State) : State := { s with failcnt := 0, sched := .idle }

/-- `FAILCNT <- FAILCNT + 1` (43_scheduler.md rule R106). -/
def State.countFailure (s : State) : State := { s with failcnt := s.failcnt + 1 }

/-- The diagnostic of a failed attempt, in a development build only (43_scheduler.md rule R116). -/
def State.reportFailure (s : State) : State :=
  if s.cfg.consoleEn then s.emitCon (.txFailed s.failcnt) else s

/-- The threshold test: `SCHED <- Faulted` or back to Idle (43_scheduler.md rules R106, R107). -/
def State.testThreshold (s : State) : State :=
  { s with sched := if s.thresholdReached then .faulted else .idle }

/-- A failed send: count, report, test, in this order (43_scheduler.md rules R106, R107, R116). -/
def State.sendFailed (s : State) : State := s.countFailure.reportFailure.testThreshold

/-- The attempt up to the transport's answer: ENCODE, `TX`, and the attempt time "regardless of outcome"
(43_scheduler.md rule R104). -/
def State.transmit (s : State) (now : TimeReg) : State :=
  { s.encodeFrame.emit s.encodeFrame.txRequest with lastSend := now }

/-- `ATTEMPT(now, ok)` (43_scheduler.md rule R104). -/
def State.attempt (s : State) (now : TimeReg) (ok : Bool) : State :=
  if ok then (s.transmit now).sendSucceeded else (s.transmit now).sendFailed

/-- Phase (a), up to the supervisor's part: an attempt when due, nothing when not (43_scheduler.md rules R103,
R108). It leaves `SCHED` Faulted exactly where a restart must follow. -/
def State.schedulerPhase (s : State) (now : TimeReg) (ok : Bool) : State :=
  if s.isDue now then { s with sched := .due }.attempt now ok else s

end Sys2Proof.Machine
end

