-- ==== Sys2Proof/Machine/Tick.lean ====
section
/-! DEFINITION. The control loop: dispatch of a command word, phases (b) and (c), the whole tick, and the effect of
each event. 43_scheduler.md rules R100, R112, 45_console.md rules R135, R136, 44_supervisor.md rules R120 to R125. -/

namespace Sys2Proof.Machine

/-- Go on from a next state; a fault or a refusal passes. -/
def andThen (o : Host.Outcome State Fault Refusal) (k : State → State) : Host.Outcome State Fault Refusal :=
  match o with
  | .next s => .next (k s)
  | .fault r => .fault r
  | .refused r => .refused r

/-- `SERVE(w)`: decode the word and perform the command, or report it as unrecognized (45_console.md rule R136). -/
def serve (w : CmdWord) (s : State) : Host.Outcome State Fault Refusal :=
  match decode w with
  | .instr i => exec i s
  | .unrecognized _ => .next (s.unrecognized w)

/-- Phase (b): serve the command of the tick, if there is one and the build has a console (45_console.md rules R135,
R142). -/
def consolePhase (cmd : Option CmdWord) (s : State) : Host.Outcome State Fault Refusal :=
  match cmd with
  | some w => if s.cfg.consoleEn then serve w s else .next s
  | none => .next s

/-- Phase (c) and the end of the tick: one heartbeat, and the loop is back at phase (a) (44_supervisor.md rule R121,
10_state.md rule R22). -/
def State.supervisorPhase (s : State) (t : Nat) : State := { s.heartbeat t with phase := .a, time := t }

/-- `TICK(t, cmd, ok)`, with `t0` drawn for the restart it may end in (43_scheduler.md rule R112). A forced restart
ends the tick: phases (b) and (c) are not performed (rule R107). -/
def tick (t : Nat) (cmd : Option CmdWord) (ok : Bool) (t0 : Nat) (s : State) : Host.Outcome State Fault Refusal :=
  let afterA := s.schedulerPhase (timeReg t) ok
  if afterA.sched = .faulted then .next (afterA.forceRestart t0)
  else
    andThen (consolePhase cmd { afterA with phase := .b }) fun afterB =>
      { afterB with phase := .c }.supervisorPhase t

/-- The effect of an event. A power-on reset has one in every state (60_exceptions.md rule R157, "wins over
anything"); the others only where the state is one a run reaches (93_implementation_defined.md U8). -/
def perform (e : Event) (s : State) : Host.Outcome State Fault Refusal :=
  match e with
  | .reset t0 => .next (s.resetSequence t0)
  | .wdtExpire _ t0 => if s.atTickBoundary then .next (s.wdtExpire t0) else .refused .unreachableState
  | .tick t cmd ok t0 => if s.atTickBoundary then tick t cmd ok t0 s else .refused .unreachableState

/-- One event of a run, the one the environment draws, on a block built with a valid configuration (00_scope.md
rule R6). -/
def runEvent (s : State) : Host.Outcome State Fault Refusal :=
  if s.cfg.valid then perform (s.nextEvent s.nextDraw) s.drawTaken.beginEvent else .refused .invalidConfiguration

/-- The draw of a tick at the time of the previous event that presents one command word. DESIGN CHOICE, unsafe
(notes/assumptions/18.md): 43_scheduler.md rule R111 leaves the transport's answer free; here it is success, consulted
only where that tick is due (right after another event, so where `PERIOD` is 0 or the attempt is overdue). The gap and
the latency, free too (D33, D14), are 0. -/
def commandDraw (w : CmdWord) : EnvDraw :=
  { powerOn := false, gap := 0, expireAtLimit := false, cmd := some w, txOk := true, latency := 0 }

end Sys2Proof.Machine
end

