-- ==== Sys2Proof/Machine/Step.lean ====
section
/-! DEFINITION. One step of the machine, which is one event of a run, and how a command comes to be its first. -/

namespace Sys2Proof.Machine

/-- One step: the next event of a run (44_supervisor.md rule R127; a tick is "the one step of the block",
43_scheduler.md rule R112). -/
def step (s : State) : Host.Outcome State Fault Refusal := runEvent s

/-- The state with a command word presented on the command port at the next event: the block fetches no instruction,
"a console command is a 16-bit word presented on the command port" (20_memory.md rule R43). The event is a tick at
the time of the previous one (notes/assumptions/4.md); what else the placed draw fixes is the model's choice
(notes/assumptions/18.md). -/
def State.withFetchWord (s : State) (_nbits w : Nat) : State :=
  { s with inputs := commandDraw (BitVec.ofNat 16 w) :: s.inputs }

end Sys2Proof.Machine
end

