-- ==== Sys2Proof/Machine/Ports.lean ====
section
/-! DEFINITION. The output ports of 00_scope.md rule R7 as views of a state: what each port carried in the latest
event. The seven read ports are the getters of Sys2Proof/Machine/Operands.lean. -/

namespace Sys2Proof.Machine

/-- `con_code` of a record (30_encoding.md rule R56); 7 is reserved and 0 stands for no record. -/
def Record.code : Record → BitVec 3
  | .helpInfo _ => 1
  | .statusInfo _ _ _ _ _ _ _ => 2
  | .setOk _ _ => 3
  | .setRejected _ _ => 4
  | .unrecognized _ => 5
  | .txFailed _ => 6

/-- All the event emitted, in emission order: its own outputs, then those of the reset sequence. -/
def State.outputs (s : State) : List Output := s.out ++ s.resetOut

/-- The records on the console port, in order. -/
def State.conRecords (s : State) : List Record := s.outputs.filterMap fun o => match o with | .con r => some r | _ => none

/-- The payloads on the transmit port, in order. -/
def State.txPayloads (s : State) : List (List Byte) :=
  s.outputs.filterMap fun o => match o with | .tx _ _ bytes => some bytes | _ => none

/-- `wdt_feed`: the number of heartbeat pulses. -/
def State.heartbeats (s : State) : Nat := s.outputs.count .hb

/-- The causes on the restart output, in order; `restart_req` is the pulse of cause `exhausted`. -/
def State.restarts (s : State) : List Cause := s.outputs.filterMap fun o => match o with | .restart c => some c | _ => none

/-- `restart_req` (44_supervisor.md rule R122). -/
def State.restartReq (s : State) : Bool := s.restarts.contains .exhausted

/-- `wdt_arm` with its timeout (44_supervisor.md rule R124). -/
def State.wdtArms (s : State) : List TimeReg := s.outputs.filterMap fun o => match o with | .wdtArm t => some t | _ => none

/-- `tx_data`: lane `i`, bits `8*i + 7 : 8*i`, carries byte `i` (30_encoding.md rule R57). -/
def txData : List Byte → BitVec 64
  | [] => 0
  | b :: rest => b.setWidth 64 ||| (txData rest <<< 8)

end Sys2Proof.Machine
end

