-- ==== Sys2Proof/Safety.lean ====
section
/-! DEFINITION. What the statements mean by a well-formed frame, a legal state, a run, and what a run emitted. -/

namespace Sys2Proof

/-- The set command of a field (30_encoding.md rule R50). -/
def Settable.command : Settable → Nat → Instr
  | .ctr, v => .setCtr v
  | .warn, v => .setWarn v
  | .prefill, v => .setPrefill v
  | .decel, v => .setDecel v
  | .decelNv, v => .setDecelNv v
  | .drvbrk, v => .setDrvbrk v

end Sys2Proof

namespace Sys2Proof.Machine

/-- A well-formed frame: `FRAME[0] = FRAME[1] ^ ... ^ FRAME[7]` (42_frame_codec.md rule R95). -/
def State.frameWellFormed (s : State) : Prop := s.memRead 0 = s.xorOfBytes

/-- The XOR of a list of bytes. -/
def xorAll (bytes : List Byte) : Byte := bytes.foldl (fun acc b => acc ^^^ b) 0

/-- The invariant of a run at its event boundaries: a valid configuration, memory in canonical form, what 10_state.md
rule R26 says of a reachable state, and what 44_supervisor.md rule R127 adds of the watchdog. -/
structure State.Inv (s : State) : Prop where
  valid : s.cfg.valid = true
  canonical : s.frame.wf = true
  boundary : s.atTickBoundary = true
  fed : s.wdtFedAt = s.time
  limit : s.wdtLimit = BitVec.ofNat 32 s.cfg.wdtTimeout

/-- Which next events are admitted in a state (44_supervisor.md rules R125 to R127). -/
def State.admits (s : State) : Event → Prop
  | .tick t _ _ t0 => s.time ≤ t ∧ t - s.wdtFedAt ≤ s.wdtLimit.toNat ∧ t ≤ t0
  | .wdtExpire t t0 => s.time ≤ t ∧ s.wdtLimit.toNat ≤ t - s.wdtFedAt ∧ t ≤ t0
  | .reset t0 => s.time ≤ t0

/-- `n` steps and the output lists of the events, in order; none where a step stops. -/
def trace : Nat → State → Option (List (List Output) × State)
  | 0, s => some ([], s)
  | n + 1, s =>
    match step s with
    | .next s' => (trace n s').map fun p => (s'.out :: p.1, p.2)
    | .fault _ => none
    | .refused _ => none

/-- A run of setters. -/
def setMany : List (Settable × Nat) → State → State
  | [], s => s
  | (f, v) :: rest, s => setMany rest (s.setF f v)

/-- ENCODE calls, each after a run of setters; with empty runs, ENCODE repeated. -/
def encodeInterleaved : List (List (Settable × Nat)) → State → State
  | [], s => s
  | l :: rest, s => encodeInterleaved rest (setMany l s).encodeFrame

/-- The machine goes on from `o` to a state of which `P` holds. -/
def GoesTo (o : Host.Outcome State Fault Refusal) (P : State → Prop) : Prop := ∃ t, o = .next t ∧ P t

/-- `t` is `s` but for the frame and one more output. -/
def OnlyFrameAndOutput (s t : State) (o : Output) : Prop := t = { s with frame := t.frame, out := s.out ++ [o] }

/-- The frame of `t` differs from that of `s` at most in the bits of field `f`: every byte but the field's reads as
before, in the field's byte every bit outside its mask, and so every other field and every reserved bit. -/
def OnlyFieldBits (s t : State) (f : Settable) : Prop :=
  (∀ a : FrameAddr, a ≠ s.cfg.layout.byteOf f.field → t.memRead a = s.memRead a)
    ∧ t.memRead (s.cfg.layout.byteOf f.field) &&& ~~~ s.cfg.layout.mask f.field
        = s.memRead (s.cfg.layout.byteOf f.field) &&& ~~~ s.cfg.layout.mask f.field
    ∧ (∀ g : Field, g ≠ f.field → t.getF g = s.getF g)
    ∧ ∀ a : FrameAddr, t.memRead a &&& s.cfg.layout.reservedBits a = s.memRead a &&& s.cfg.layout.reservedBits a

/-- What the rule of a set command says of it: the word it is decoded from, the value stored and the record where the
value is at most `max`, no change but the record where it is above (41_frame_model.md rules R67 to R73). -/
def SetCommand (cmd : Nat → Instr) (word : CmdWord) (f : Settable) (max : Nat) (s : State) (v : Nat) : Prop :=
  (v ≤ 255 → decode (word ||| BitVec.ofNat 16 v) = .instr (cmd v))
    ∧ (v ≤ max → GoesTo (exec (cmd v) s) fun t =>
        OnlyFrameAndOutput s t (.con (.setOk f v)) ∧ t.getF f.field = BitVec.ofNat 8 v ∧ OnlyFieldBits s t f)
    ∧ (max < v → exec (cmd v) s = .next { s with out := s.out ++ [.con (.setRejected f v)] })

/-- The state the environment leaves a step to act on: the draw taken, the output lists empty. -/
def State.presented (s : State) : State := s.drawTaken.beginEvent

end Sys2Proof.Machine
end

