-- ==== Sys2Proof/Certificates/Slice0/Obligations.lean ====
section
/-! DEFINITION. The statements for the provers. A statement that says a rule of spec/ whole is `stated` in
OBLIGATIONS.json; the others are `derived` and cite sections. -/

open Sys2Proof Sys2Proof.Machine

/-! ### Decoding and encoding -/

/-- Words written out from 30_encoding.md rule R50 and the vectors V5.1 to V5.11 of 95_test_vectors.md decode to what
the spec says. -/
def Obligations.SpecWordsDecodeAsWritten : Prop :=
  decode 0b0001000000000000#16 = .instr .help ∧ decode 0b0010000000000000#16 = .instr .status
    ∧ decode 0b0011000100000111#16 = .instr (.setCtr 7) ∧ decode 0b0011001000001001#16 = .instr (.setWarn 9)
    ∧ decode 0b0011001100000001#16 = .instr (.setPrefill 1) ∧ decode 0b0011010000010000#16 = .instr (.setDecel 16)
    ∧ decode 0b0011010100000010#16 = .instr (.setDecelNv 2) ∧ decode 0b0011011011111111#16 = .instr (.setDrvbrk 255)
    ∧ decode 0x0000#16 = .unrecognized .reservedOp ∧ decode 0x1001#16 = .unrecognized .operandNotZero
    ∧ decode 0x2100#16 = .unrecognized .operandNotZero ∧ decode 0x3005#16 = .unrecognized .reservedField
    ∧ decode 0x3700#16 = .unrecognized .reservedField ∧ decode 0x3F01#16 = .unrecognized .reservedField
    ∧ decode 0x4000#16 = .unrecognized .reservedOp ∧ decode 0xFFFF#16 = .unrecognized .reservedOp

/-- Decoding the word of a well-formed instruction gives the instruction back, with its whole operand. -/
def Obligations.DecodeOfEncodeIsTheInstruction : Prop :=
  ∀ i : Instr, i.wellFormed = true → decode (encode i) = .instr i

/-- A word that decodes to an instruction is that instruction's word, and the instruction is well-formed: no bit of a
word is ignored (30_encoding.md rules R50, R51). -/
def Obligations.EncodeOfDecodeIsTheWord : Prop :=
  ∀ (w : CmdWord) (i : Instr), decode w = .instr i → i.wellFormed = true ∧ encode i = w

/-- The decoder agrees with the match and mask rows of 30_encoding.md rule R50: a word decodes to an instruction
exactly where a row selects it, the row is the instruction's, and "no word matches two". -/
def Obligations.OpcodeRowsAgreeWithDecode : Prop :=
  ∀ w : CmdWord,
    (∀ i, decode w = .instr i → i.row ∈ opcodeRows ∧ i.row.selects w = true)
      ∧ (∀ r ∈ opcodeRows, r.selects w = true → ∃ i, decode w = .instr i ∧ i.row = r)
      ∧ ∀ r ∈ opcodeRows, ∀ q ∈ opcodeRows, r.selects w = true → q.selects w = true → r = q

/-- The unrecognized words of 30_encoding.md rule R52, by the clause that makes them so (decision D24). -/
def Obligations.UnrecognizedWordsByClause : Prop :=
  ∀ w : CmdWord,
    (decode w = .unrecognized .reservedOp ↔ w.toNat / 4096 = 0 ∨ 4 ≤ w.toNat / 4096)
      ∧ (decode w = .unrecognized .operandNotZero ↔
          (w.toNat / 4096 = 1 ∨ w.toNat / 4096 = 2) ∧ w.toNat % 4096 ≠ 0)
      ∧ (decode w = .unrecognized .reservedField ↔
          w.toNat / 4096 = 3 ∧ (w.toNat / 256 % 16 = 0 ∨ 7 ≤ w.toNat / 256 % 16))

/-! ### The commands -/

/-- 45_console.md rule R137, whole: the word, the constant record, no other change, in every state. -/
def Obligations.HelpListsFieldsAndRanges : Prop :=
  decode 0x1000#16 = .instr .help
    ∧ ∀ s : State, exec .help s = .next { s with
        out := s.out ++ [.con (.helpInfo [
          ⟨1, "rolling counter", 0, 15⟩, ⟨2, "warn-pulse activation level", 0, 9⟩,
          ⟨3, "prefill-active flag", 0, 1⟩, ⟨4, "deceleration-regulation activation level", 0, 15⟩,
          ⟨5, "deceleration-regulation unavailable flag", 0, 1⟩,
          ⟨6, "driver-brake-pressure-determining flag", 0, 1⟩])] }

/-- 45_console.md rule R138, whole: the word; the seven stored fields in order and no other change, in every state;
the stored checksum; in a tick that sends, the counter just transmitted; the example. -/
def Obligations.StatusReportsStoredFields : Prop :=
  decode 0x2000#16 = .instr .status
    ∧ (∀ s : State, exec .status s = .next { s with
        out := s.out ++ [.con (.statusInfo (s.getF .ctr) (s.getF .warn) (s.getF .prefill) (s.getF .decel)
          (s.getF .decelNv) (s.getF .drvbrk) (s.getF .chk))] })
    ∧ (∀ s : State, s.getF .chk = s.memRead 0)
    ∧ (∀ (s : State) (t t0 : Nat) (ok : Bool), s.cfg.consoleEn = true → s.isDue (timeReg t) = true →
        (s.schedulerPhase (timeReg t) ok).sched ≠ .faulted →
        GoesTo (tick t (some 0x2000#16) ok t0 s) fun u =>
          ∃ b0 b1 rest failed warn prefill decel decelNv drvbrk,
            u.out = s.out ++ .tx s.cfg.netId 8 (b0 :: b1 :: rest) :: failed
              ++ [.con (.statusInfo (b1 &&& 0x0F#8) warn prefill decel decelNv drvbrk b0), .hb])
    ∧ ∀ s : State, s.cfg.layout = Layout.default →
        s.frameBytes = [0xEE#8, 0x91#8, 0x7F#8, 0#8, 0#8, 0#8, 0#8, 0#8] →
        exec .status s = .next { s with out := s.out ++ [.con (.statusInfo 1 9 1 15 1 1 0xEE#8)] }

/-- 41_frame_model.md rules R69 to R73, whole, over every well-formed layout, every state and every operand: the
commands SET_WARN, SET_PREFILL, SET_DECEL, SET_DECEL_NV and SET_DRVBRK with their words, bounds, effects, what they
leave unchanged; that no operand of SET_WARN brings the stored level above 9; and the rules' examples on the default
layout. -/
def Obligations.SetCommandsOfPlacedFields : Prop :=
  (∀ (s : State) (v : Nat), s.cfg.layout.wellFormed = true →
    SetCommand .setWarn 0x3200#16 .warn 9 s v ∧ SetCommand .setPrefill 0x3300#16 .prefill 1 s v
      ∧ SetCommand .setDecel 0x3400#16 .decel 15 s v ∧ SetCommand .setDecelNv 0x3500#16 .decelNv 1 s v
      ∧ SetCommand .setDrvbrk 0x3600#16 .drvbrk 1 s v)
    ∧ (∀ (s : State) (v : Nat), s.cfg.layout.wellFormed = true → (s.getF .warn).toNat ≤ 9 →
        GoesTo (exec (.setWarn v) s) fun t => (t.getF .warn).toNat ≤ 9)
    ∧ ∀ s : State, s.cfg.layout = Layout.default →
        (s.memRead 1 = 0x03#8 → GoesTo (exec (.setWarn 9) s) fun t =>
          t.memRead 1 = 0x93#8 ∧ t.out = s.out ++ [.con (.setOk .warn 9)]
            ∧ GoesTo (exec (.setWarn 10) t) fun u =>
                u.memRead 1 = 0x93#8 ∧ u.out = t.out ++ [.con (.setRejected .warn 10)])
        ∧ (s.memRead 2 = 0x00#8 → GoesTo (exec (.setPrefill 1) s) fun t => t.memRead 2 = 0x01#8)
        ∧ (s.memRead 2 = 0x01#8 → GoesTo (exec (.setDecel 15) s) fun t => t.memRead 2 = 0x1F#8)
        ∧ (s.memRead 2 = 0x1F#8 → GoesTo (exec (.setDecelNv 1) s) fun t => t.memRead 2 = 0x3F#8)
        ∧ (s.memRead 2 = 0x3F#8 → GoesTo (exec (.setDrvbrk 1) s) fun t =>
            t.memRead 2 = 0x7F#8 ∧ GoesTo (exec (.setDrvbrk 0) t) fun u => u.memRead 2 = 0x3F#8)

/-- SET_CTR (41_frame_model.md section 2; that the counter has a setter is the spec's decision D4): its word, bound
and effect, that it writes `FRAME[1][3:0]` only, that the next ENCODE gives `(v + 1) mod 16`, the example. -/
def Obligations.SetCtrSetsTheRollingCounter : Prop :=
  (∀ (s : State) (v : Nat), s.cfg.layout.wellFormed = true → SetCommand .setCtr 0x3100#16 .ctr 15 s v)
    ∧ (∀ (s : State) (v : Nat), v ≤ 15 → GoesTo (exec (.setCtr v) s) fun t =>
        t.memRead 1 = (s.memRead 1 &&& 0xF0#8) ||| BitVec.ofNat 8 v
          ∧ (∀ a : FrameAddr, a ≠ 1 → t.memRead a = s.memRead a)
          ∧ t.encodeFrame.getF .ctr = BitVec.ofNat 8 ((v + 1) % 16))
    ∧ ∀ s : State, s.memRead 1 = 0x93#8 → GoesTo (exec (.setCtr 7) s) fun t =>
        t.memRead 1 = 0x97#8 ∧ t.out = s.out ++ [.con (.setOk .ctr 7)]

/-- 45_console.md rule R136, whole: dispatch of every word. `SERVE` always completes with exactly one record; an
unrecognized word changes nothing else. -/
def Obligations.ServeDispatchesEveryWord : Prop :=
  (∀ (w : CmdWord) (s : State), GoesTo (serve w s) fun t => ∃ r, t.out = s.out ++ [.con r])
    ∧ (∀ s : State, serve 0x1000#16 s = exec .help s) ∧ (∀ s : State, serve 0x2000#16 s = exec .status s)
    ∧ (∀ (s : State) (f : Settable) (w : CmdWord), w.toNat / 4096 = 3 → w.toNat / 256 % 16 = f.field.number →
        serve w s = .next (s.setF f (w.toNat % 256)))
    ∧ (∀ (s : State) (w : CmdWord), w ≠ 0x1000#16 → w ≠ 0x2000#16 →
        ¬ (w.toNat / 4096 = 3 ∧ 1 ≤ w.toNat / 256 % 16 ∧ w.toNat / 256 % 16 ≤ 6) →
        serve w s = .next { s with out := s.out ++ [.con (.unrecognized w)] })
    ∧ ∀ s : State, serve 0x3700#16 s = .next { s with out := s.out ++ [.con (.unrecognized 0x3700#16)] }

/-- What the host cannot do (45_console.md section on what the host cannot do): a command, whatever its word, leaves
the checksum, the reserved bits, the failure counter, the last send time, the configuration, the watchdog, the
scheduler's state and the loop phase as they were, keeps every field in its domain, and emits no `TX`, no heartbeat
and no restart. -/
def Obligations.HostCannotReachBeyondTheFields : Prop :=
  ∀ (w : CmdWord) (s t : State), s.cfg.layout.wellFormed = true → serve w s = .next t →
    t.getF .chk = s.getF .chk
      ∧ (∀ a : FrameAddr, t.memRead a &&& s.cfg.layout.reservedBits a = s.memRead a &&& s.cfg.layout.reservedBits a)
      ∧ (s.fieldsInDomain = true → t.fieldsInDomain = true)
      ∧ t.failcnt = s.failcnt ∧ t.lastSend = s.lastSend ∧ t.cfg = s.cfg ∧ t.sched = s.sched ∧ t.phase = s.phase
      ∧ t.wdtArmed = s.wdtArmed ∧ t.wdtLimit = s.wdtLimit ∧ t.wdtFedAt = s.wdtFedAt ∧ t.time = s.time
      ∧ t.inputs = s.inputs ∧ t.draws = s.draws ∧ t.resetOut = s.resetOut ∧ ∃ r, t.out = s.out ++ [.con r]

/-! ### The field primitives -/

/-- 41_frame_model.md rule R66, whole: `PUTF` is a read-modify-write of one byte that changes the bits of the mask and
no other bit. -/
def Obligations.PutfWritesOnlyItsMask : Prop :=
  ∀ (s : State) (f : Settable) (v : Nat), v < 2 ^ f.field.width →
    let L := s.cfg.layout
    (s.putF f v).memRead (L.byteOf f.field)
        = (s.memRead (L.byteOf f.field) &&& ~~~ L.mask f.field)
            ||| ((BitVec.ofNat 8 v <<< L.shiftOf f.field) &&& L.mask f.field)
      ∧ (s.putF f v).memRead (L.byteOf f.field) &&& ~~~ L.mask f.field
          = s.memRead (L.byteOf f.field) &&& ~~~ L.mask f.field
      ∧ (∀ a : FrameAddr, a ≠ L.byteOf f.field → (s.putF f v).memRead a = s.memRead a)
      ∧ s.putF f v = { s with frame := (s.putF f v).frame }

/-- 41_frame_model.md rule R67, whole: acceptance is decided by the whole of `v` alone; an accepted write changes at
most the field's bits and not `CHK`; a rejected one changes no state; without a console no setter is reached, so
neither record exists. -/
def Obligations.SetfIsRangeChecked : Prop :=
  ∀ (s : State) (f : Settable) (v : Nat),
    (v ≤ f.maxVal → s.setF f v = { s.putF f v with out := s.out ++ [.con (.setOk f v)] })
      ∧ (f.maxVal < v → s.setF f v = { s with out := s.out ++ [.con (.setRejected f v)] })
      ∧ (s.cfg.layout.wellFormed = true → (s.setF f v).getF .chk = s.getF .chk ∧ OnlyFieldBits s (s.setF f v) f)
      ∧ (s.cfg.consoleEn = false → ∀ cmd : Option CmdWord, consolePhase cmd s = .next s)

/-- Field isolation (41_frame_model.md section 5): neither `PUTF` nor `SETF` of a field changes another field or a
reserved bit, for every well-formed layout. -/
def Obligations.FieldsAreIsolated : Prop :=
  ∀ (s : State) (f : Settable) (v : Nat), s.cfg.layout.wellFormed = true →
    (∀ g : Field, g ≠ f.field → (s.putF f v).getF g = s.getF g ∧ (s.setF f v).getF g = s.getF g)
      ∧ ∀ a : FrameAddr,
          (s.putF f v).memRead a &&& s.cfg.layout.reservedBits a = s.memRead a &&& s.cfg.layout.reservedBits a
            ∧ (s.setF f v).memRead a &&& s.cfg.layout.reservedBits a = s.memRead a &&& s.cfg.layout.reservedBits a

/-- Round trip (41_frame_model.md section 5): an accepted value is read back, and setting a field to what it holds is
accepted in a reachable state and leaves every bit of the frame. -/
def Obligations.FieldValuesRoundTrip : Prop :=
  ∀ (s : State) (f : Settable), s.cfg.layout.wellFormed = true →
    (∀ v, v ≤ f.maxVal → (s.setF f v).getF f.field = BitVec.ofNat 8 v)
      ∧ (s.atTickBoundary = true →
          (s.setF f (s.getF f.field).toNat).out = s.out ++ [.con (.setOk f (s.getF f.field).toNat)]
            ∧ ∀ a : FrameAddr, (s.setF f (s.getF f.field).toNat).memRead a = s.memRead a)

/-- The getters as read ports (41_frame_model.md rules R76 to R79, whole, with `GET_CTR`, `GET_WARN` and `GET_CHK`
beside them): each port is as wide as its field and shows `GETF` of it whole, for every layout; their formulas and
the rules' examples. -/
def Obligations.GettersReadTheirBits : Prop :=
  (∀ s : State, s.getCtr.setWidth 8 = s.getF .ctr ∧ s.getWarn.setWidth 8 = s.getF .warn
      ∧ s.getPrefill.setWidth 8 = s.getF .prefill ∧ s.getDecel.setWidth 8 = s.getF .decel
      ∧ s.getDecelNv.setWidth 8 = s.getF .decelNv ∧ s.getDrvbrk.setWidth 8 = s.getF .drvbrk)
    ∧ (∀ s : State, s.getCtr = (s.memRead 1 &&& 0x0F#8).setWidth 4 ∧ s.getChk = s.memRead 0)
    ∧ (∀ s : State, s.atTickBoundary = true → s.getWarn.toNat ≤ 9)
    ∧ (∀ s : State, s.cfg.layout = Layout.default →
        s.getWarn = ((s.memRead 1 >>> 4) &&& 0x0F#8).setWidth 4
          ∧ s.getPrefill = (s.memRead 2 &&& 0x01#8).setWidth 1
          ∧ s.getDecel = ((s.memRead 2 >>> 1) &&& 0x0F#8).setWidth 4
          ∧ s.getDecelNv = ((s.memRead 2 >>> 5) &&& 0x01#8).setWidth 1
          ∧ s.getDrvbrk = ((s.memRead 2 >>> 6) &&& 0x01#8).setWidth 1
          ∧ (s.memRead 1 = 0x97#8 → s.getCtr = 7 ∧ s.getWarn = 9)
          ∧ (s.memRead 2 = 0x7F#8 → s.getPrefill = 1 ∧ s.getDecel = 15)
          ∧ (s.memRead 2 = 0x5F#8 → s.getDecelNv = 0 ∧ s.getDrvbrk = 1))

/-- The masks of a well-formed layout (30_encoding.md section 1, 70_reset_and_hazards.md section 3, "unit-tested for
mask disjointness"): two fields in one byte share no bit, no placed field lies in byte 0 or crosses its byte, no
placed field uses the counter's nibble, and the default layout is well-formed. -/
def Obligations.MasksOfWellFormedLayoutsAreDisjoint : Prop :=
  (∀ L : Layout, L.wellFormed = true →
    (∀ f g : Field, f ≠ g → L.byteOf f = L.byteOf g → L.mask f &&& L.mask g = 0)
      ∧ (∀ f : Settable, L.byteOf f.field ≠ 0 ∧ L.shiftOf f.field + f.field.width ≤ 8)
      ∧ ∀ f : Field, f ≠ .ctr → L.byteOf f = 1 → L.mask f &&& 0x0F#8 = 0)
    ∧ Layout.default.wellFormed = true

/-! ### FrameCodec -/

/-- 42_frame_codec.md rule R91, whole: the counter of byte 1 is advanced by one modulo 16, the carry does not reach
the high nibble, every other byte and all other state stand; the example; and an attempt keeps the advance whatever
the transport answers. -/
def Obligations.CtrAdvIncrementsModuloSixteen : Prop :=
  (∀ s : State, s.ctrAdv.memRead 1 = (s.memRead 1 &&& 0xF0#8) ||| ((s.memRead 1 + 1) &&& 0x0F#8)
    ∧ (s.ctrAdv.getF .ctr).toNat = ((s.getF .ctr).toNat + 1) % 16
    ∧ (∀ a : FrameAddr, a ≠ 1 → s.ctrAdv.memRead a = s.memRead a)
    ∧ s.ctrAdv = { s with frame := s.ctrAdv.frame })
    ∧ (∀ s : State, s.memRead 1 = 0x9F#8 → s.ctrAdv.memRead 1 = 0x90#8)
    ∧ ∀ (s : State) (now : TimeReg) (ok : Bool), s.isDue now = true →
        (s.schedulerPhase now ok).memRead 1 = s.ctrAdv.memRead 1

/-- 42_frame_codec.md rule R92, whole: byte 0 becomes the XOR of bytes 1 to 7, each bit their parity; the old byte 0
is not an input; nothing else changes; the example. -/
def Obligations.XorsumStoresTheXorOfBytesOneToSeven : Prop :=
  (∀ s : State, s.xorsum.memRead 0 = s.memRead 1 ^^^ s.memRead 2 ^^^ s.memRead 3 ^^^ s.memRead 4 ^^^ s.memRead 5
      ^^^ s.memRead 6 ^^^ s.memRead 7
    ∧ (∀ k : Nat, ((s.xorsum.memRead 0).getLsbD k).toNat
        = (((s.memRead 1).getLsbD k).toNat + ((s.memRead 2).getLsbD k).toNat + ((s.memRead 3).getLsbD k).toNat
          + ((s.memRead 4).getLsbD k).toNat + ((s.memRead 5).getLsbD k).toNat + ((s.memRead 6).getLsbD k).toNat
          + ((s.memRead 7).getLsbD k).toNat) % 2)
    ∧ (∀ a : FrameAddr, a ≠ 0 → s.xorsum.memRead a = s.memRead a)
    ∧ s.xorsum = { s with frame := s.xorsum.frame })
    ∧ ∀ s : State, s.frameBytes.tail = [0x91#8, 0x7F#8, 0#8, 0#8, 0#8, 0#8, 0#8] → s.xorsum.memRead 0 = 0xEE#8

/-- 42_frame_codec.md rule R90, whole: ENCODE is the counter step and then the checksum step, its result depends on
the frame alone, it writes `FRAME[1][3:0]` and `FRAME[0]` and nothing else, it emits nothing; the example. -/
def Obligations.EncodeDependsOnTheFrameAlone : Prop :=
  (∀ s : State, s.encodeFrame = s.ctrAdv.xorsum
    ∧ s.encodeFrame = { s with frame := s.encodeFrame.frame }
    ∧ (s.encodeFrame.memRead 1 = (s.memRead 1 &&& 0xF0#8) ||| ((s.memRead 1 + 1) &&& 0x0F#8))
    ∧ s.encodeFrame.memRead 0 = s.encodeFrame.memRead 1 ^^^ s.memRead 2 ^^^ s.memRead 3 ^^^ s.memRead 4
        ^^^ s.memRead 5 ^^^ s.memRead 6 ^^^ s.memRead 7
    ∧ ∀ a : FrameAddr, a ≠ 0 → a ≠ 1 → s.encodeFrame.memRead a = s.memRead a)
    ∧ (∀ s t : State, (∀ a : FrameAddr, s.memRead a = t.memRead a) →
        ∀ a : FrameAddr, s.encodeFrame.memRead a = t.encodeFrame.memRead a)
    ∧ ∀ s : State, s.frameBytes = [0#8, 0#8, 0#8, 0#8, 0#8, 0#8, 0#8, 0#8] →
        s.encodeFrame.frameBytes = [1#8, 1#8, 0#8, 0#8, 0#8, 0#8, 0#8, 0#8]

/-- ENCODE alters no field but the counter and the checksum, and no reserved bit (42_frame_codec.md, on what ENCODE
alters), for every well-formed layout. -/
def Obligations.EncodeLeavesTheOtherFields : Prop :=
  ∀ s : State, s.cfg.layout.wellFormed = true →
    (∀ g : Field, g ≠ .ctr → g ≠ .chk → s.encodeFrame.getF g = s.getF g)
      ∧ ∀ a : FrameAddr,
          s.encodeFrame.memRead a &&& s.cfg.layout.reservedBits a = s.memRead a &&& s.cfg.layout.reservedBits a

/-- The post-condition of ENCODE (42_frame_codec.md): from every frame, reachable or not, the frame after it is
well-formed, and the XOR of its eight bytes is 0. -/
def Obligations.EncodedFramesAreWellFormed : Prop :=
  ∀ s : State, s.encodeFrame.frameWellFormed ∧ xorAll s.encodeFrame.frameBytes = 0

/-- The counter sequence (42_frame_codec.md): after `n` ENCODE calls the counter is `(c0 + n) mod 16`, whatever
setters of the other fields are interleaved. -/
def Obligations.CounterCyclesUnderInterleavedSetters : Prop :=
  ∀ (runs : List (List (Settable × Nat))) (s : State), s.cfg.layout.wellFormed = true →
    (∀ run ∈ runs, ∀ p ∈ run, p.1 ≠ .ctr) →
    ((encodeInterleaved runs s).getF .ctr).toNat = ((s.getF .ctr).toNat + runs.length) % 16

/-! ### BroadcastScheduler -/

/-- 43_scheduler.md rules R103 and R108, whole: due exactly at `elapsed >= PERIOD`, true at equality; where it is
not, phase (a) changes no state and emits nothing. -/
def Obligations.NotDueMeansNoChange : Prop :=
  ∀ (s : State) (now : TimeReg) (ok : Bool),
    (s.isDue now = true ↔ s.cfg.period ≤ (now - s.lastSend).toNat)
      ∧ ((now - s.lastSend).toNat < s.cfg.period → s.schedulerPhase now ok = s)

/-- 43_scheduler.md rules R104 and R105, whole: an attempt is one ENCODE, one `TX` of the identifier, the length 8 and
the eight bytes right after ENCODE, and the attempt time whatever the answer; success sets `FAILCNT` to 0 and
returns to Idle with no further output, failure adds one; the next attempt is due `PERIOD` after this one whatever
the answer. -/
def Obligations.DueAttemptEncodesSendsAndRecords : Prop :=
  ∀ (s : State) (now : TimeReg) (ok : Bool), s.cfg.period ≤ (now - s.lastSend).toNat →
    let u := s.schedulerPhase now ok
    u.lastSend = now ∧ (∀ a : FrameAddr, u.memRead a = s.encodeFrame.memRead a)
      ∧ (∃ more : List Output, (∀ id len bytes, Output.tx id len bytes ∉ more)
          ∧ u.out = s.out ++ .tx s.cfg.netId 8 [s.encodeFrame.memRead 0, s.encodeFrame.memRead 1,
              s.encodeFrame.memRead 2, s.encodeFrame.memRead 3, s.encodeFrame.memRead 4, s.encodeFrame.memRead 5,
              s.encodeFrame.memRead 6, s.encodeFrame.memRead 7] :: more ∧ (ok = true → more = []))
      ∧ (ok = true → u.failcnt = 0 ∧ u.sched = .idle) ∧ (ok = false → u.failcnt = s.failcnt + 1)
      ∧ (∀ later : TimeReg, u.isDue later = true ↔ s.cfg.period ≤ (later - now).toNat)
      ∧ u.cfg = s.cfg ∧ u.phase = s.phase ∧ u.time = s.time ∧ u.wdtArmed = s.wdtArmed ∧ u.wdtLimit = s.wdtLimit
      ∧ u.wdtFedAt = s.wdtFedAt ∧ u.inputs = s.inputs ∧ u.draws = s.draws ∧ u.resetOut = s.resetOut

/-- A failed attempt below the threshold (43_scheduler.md sections 2 and 4, decisions D12, D28): the count goes up by
one, a record with the new count appears in a development build only, the scheduler is Idle again and the tick goes
on to serve its command and feed the watchdog. -/
def Obligations.FailureBelowThresholdIsCounted : Prop :=
  ∀ (s : State) (t t0 : Nat), s.isDue (timeReg t) = true → s.failcnt.toNat + 1 < s.cfg.maxFail →
    s.cfg.maxFail ≤ 255 →
    let u := s.schedulerPhase (timeReg t) false
    u.failcnt.toNat = s.failcnt.toNat + 1 ∧ u.sched = .idle
      ∧ u.out = s.out ++ s.encodeFrame.txRequest
          :: (if s.cfg.consoleEn then [.con (.txFailed u.failcnt)] else [])
      ∧ ∀ cmd : Option CmdWord, GoesTo (tick t cmd false t0 s) fun v =>
          v.failcnt = u.failcnt ∧ v.wdtFedAt = t ∧ v.out.getLast? = some .hb

/-- 43_scheduler.md rule R107, whole: the failure that brings `FAILCNT` to `MAX_FAIL` restarts in the same tick, with
no command served and no heartbeat; one failure earlier nothing restarts. What the reset sequence emits after it is
kept apart (log entry 5). -/
def Obligations.ThresholdFailureRestartsAtOnce : Prop :=
  ∀ (s : State) (t t0 : Nat) (cmd : Option CmdWord), s.isDue (timeReg t) = true → s.cfg.maxFail ≤ 255 →
    (s.failcnt.toNat + 1 = s.cfg.maxFail →
      tick t cmd false t0 s = .next ((s.schedulerPhase (timeReg t) false).forceRestart t0)
        ∧ (s.schedulerPhase (timeReg t) false).sched = .faulted
        ∧ ((s.schedulerPhase (timeReg t) false).forceRestart t0).out
            = s.out ++ s.encodeFrame.txRequest
                :: ((if s.cfg.consoleEn then [.con (.txFailed (BitVec.ofNat 8 s.cfg.maxFail))] else [])
                    ++ [.restart .exhausted]))
      ∧ (s.failcnt.toNat + 1 < s.cfg.maxFail → GoesTo (tick t cmd false t0 s) fun u =>
          ∀ c, Output.restart c ∈ u.out → Output.restart c ∈ s.out)

/-- The due test across the wrap of the time register (43_scheduler.md section 2, 70_reset_and_hazards.md section 3):
where `LAST_SEND` shows the time `t1` of the last attempt and less than `2^32` units have passed, the test is exact,
so the scheduler never sends early and sends at the first tick at or after `t1 + PERIOD`. -/
def Obligations.DueTestIsExactBelowTheWrap : Prop :=
  ∀ (s : State) (t1 t : Nat), s.lastSend = timeReg t1 → t1 ≤ t → t - t1 < 2 ^ 32 →
    (s.isDue (timeReg t) = true ↔ t1 + s.cfg.period ≤ t)

/-- The first transmission after a reset (70_reset_and_hazards.md section 2): a tick less than `PERIOD` after `t0`
sends nothing, one at or after it sends the bytes `01 01 00 00 00 00 00 00`, for every layout and from every state
before the reset. -/
def Obligations.FirstTransmissionAfterReset : Prop :=
  ∀ (s : State) (t0 t t1 : Nat), s.out = [] → s.cfg.valid = true → t0 ≤ t → t - t0 < 2 ^ 32 →
    (t < t0 + s.cfg.period → GoesTo (tick t none true t1 (s.resetSequence t0)) fun u => u.out = [.hb])
      ∧ (t0 + s.cfg.period ≤ t → GoesTo (tick t none true t1 (s.resetSequence t0)) fun u =>
          u.out = [.tx s.cfg.netId 8 [1#8, 1#8, 0#8, 0#8, 0#8, 0#8, 0#8, 0#8], .hb])

/-- A `PERIOD` of 0 "fires on every loop tick" (43_scheduler.md section 2, decision D13). -/
def Obligations.ZeroPeriodSendsEveryTick : Prop :=
  ∀ (s : State) (t t0 : Nat) (cmd : Option CmdWord) (ok : Bool), s.cfg.period = 0 → s.out = [] →
    GoesTo (tick t cmd ok t0 s) fun u => u.out.head? = some s.encodeFrame.txRequest

/-! ### The tick, the supervisor, the watchdog -/

/-- The outputs of a tick, in order (43_scheduler.md section 3): at most one `TX`, at most one `TX_FAILED` and only
after it, then either `RESTART(exhausted)` and nothing more, or at most one response record and exactly one
heartbeat, last. A record appears in a development build only. What the reset sequence of a restart emits is kept
apart (log entry 5). -/
def Obligations.TickOutputsComeInOrder : Prop :=
  ∀ (s u : State) (t t0 : Nat) (cmd : Option CmdWord) (ok : Bool), s.out = [] → s.sched ≠ .faulted →
    tick t cmd ok t0 s = .next u →
    ∃ sent failed response : List Output,
      (sent = [] ∨ sent = [s.encodeFrame.txRequest])
        ∧ (failed = [] ∨ (sent ≠ [] ∧ s.cfg.consoleEn = true ∧ ∃ n, failed = [.con (.txFailed n)]))
        ∧ (response = [] ∨ (s.cfg.consoleEn = true ∧ ∃ r, response = [.con r]))
        ∧ ((sent ≠ [] ∧ u.out = sent ++ failed ++ [.restart .exhausted])
            ∨ u.out = sent ++ failed ++ response ++ [.hb])

/-- 44_supervisor.md rules R120 and R121, whole, with rule R123: the heartbeat emits `HB`, sets `WDT_FED_AT` and
changes nothing else; a tick that does not restart performs it exactly once, a tick that does never. -/
def Obligations.OneHeartbeatPerHealthyTick : Prop :=
  (∀ (s : State) (t : Nat), s.heartbeat t = { s with out := s.out ++ [.hb], wdtFedAt := t })
    ∧ ∀ (s u : State) (t t0 : Nat) (cmd : Option CmdWord) (ok : Bool), s.out = [] → s.sched ≠ .faulted →
        tick t cmd ok t0 s = .next u →
        (u.out.count .hb = 1 ∧ u.wdtFedAt = t ∧ .restart .exhausted ∉ u.out)
          ∨ (u.out.count .hb = 0 ∧ u.wdtFedAt = t0 ∧ u.out.getLast? = some (.restart .exhausted))

/-- The reset values of 10_state.md rule R24, whole, of every element: after the reset sequence from any state, after
both restarts, and in the model's state after reset (whose configuration and `t0 = 0` are the model's choice, log
entries 1 and 3; nothing here rests on them). -/
def Obligations.ResetGivesEveryElementItsValue : Prop :=
  let holds := fun (s : State) (t0 : Nat) =>
    (∀ a : FrameAddr, s.memRead a = 0) ∧ (∀ f : Field, s.getF f = 0) ∧ s.failcnt = 0 ∧ s.lastSend = timeReg t0
      ∧ s.sched = .idle ∧ s.phase = .a ∧ s.wdtArmed = true ∧ s.wdtLimit = BitVec.ofNat 32 s.cfg.wdtTimeout
      ∧ s.wdtFedAt = t0 ∧ s.time = t0 ∧ s.frameWellFormed ∧ s.frame.wf = true
  (∀ (s : State) (t0 : Nat), holds (s.resetSequence t0) t0 ∧ (s.resetSequence t0).cfg = s.cfg
    ∧ holds (s.forceRestart t0) t0 ∧ (s.forceRestart t0).cfg = s.cfg
    ∧ holds (s.wdtExpire t0) t0 ∧ (s.wdtExpire t0).cfg = s.cfg)
    ∧ holds State.reset State.reset.time

/-- 44_supervisor.md rule R128, whole: the two restarts differ in the cause they emit and in nothing else; the state
after either is, the emitted cause aside, that after a reset at the same start time, so nothing shows that there was a
restart; and nothing of the frame, the failure counter, the scheduler or the watchdog is left: two states that agree
on the configuration, the environment and what has been emitted are one state. -/
def Obligations.RestartsForgetEverything : Prop :=
  (∀ (s : State) (t0 : Nat), { s.forceRestart t0 with out := [] } = { s.wdtExpire t0 with out := [] }
    ∧ (s.forceRestart t0).out = s.out ++ [.restart .exhausted]
    ∧ (s.wdtExpire t0).out = s.out ++ [.restart .watchdog])
    ∧ (∀ (s : State) (t0 : Nat) (c : Cause),
        s.restart c t0 = { s.resetSequence t0 with out := s.out ++ [.restart c] })
    ∧ ∀ (s u : State) (t0 : Nat) (c : Cause), s.cfg = u.cfg → s.inputs = u.inputs → s.draws = u.draws →
        s.out = u.out → s.resetOut = u.resetOut → s.restart c t0 = u.restart c t0

/-- The environment's draws are the admitted next events (44_supervisor.md, on the environment's choice of the next
event, decisions D16, D17, D33): every draw gives an admitted event, and every admitted event is given by a draw. The
draws are the model's (log entry 2). -/
def Obligations.DrawsAreExactlyTheAdmittedEvents : Prop :=
  ∀ s : State, s.wdtArmed = true →
    (∀ d : EnvDraw, s.admits (s.nextEvent d)) ∧ ∀ e : Event, s.admits e → ∃ d : EnvDraw, s.nextEvent d = e

/-- The watchdog at a step (44_supervisor.md, on expiry and its boundary, decision D16): below the limit a step is
never an expiry, above it always one, at the limit the draw decides; the expiry gives the reset values and the
output `RESTART(watchdog)` alone, what the reset sequence emits being kept apart (log entry 5). The draw is the
model's (log entry 2). -/
def Obligations.WatchdogExpiryAtAStep : Prop :=
  ∀ (s : State), s.Inv → s.nextDraw.powerOn = false →
    let d := s.nextDraw
    let t := s.time + d.gap
    (s.cfg.wdtTimeout < d.gap ∨ (d.gap = s.cfg.wdtTimeout ∧ d.expireAtLimit = true) →
        step s = .next (s.presented.wdtExpire (t + d.latency))
          ∧ (s.presented.wdtExpire (t + d.latency)).out = [.restart .watchdog])
      ∧ (d.gap < s.cfg.wdtTimeout ∨ (d.gap = s.cfg.wdtTimeout ∧ d.expireAtLimit = false) →
          step s = tick t d.cmd d.txOk (t + d.latency) s.presented)

/-- A command cannot change what its own tick sends or whether it restarts (45_console.md on the set commands,
60_exceptions.md section 3): two ticks that differ in the command only emit the same transmit requests and the same
restarts, and leave the same failure counter and last send time. -/
def Obligations.CommandCannotChangeItsOwnTicksFrame : Prop :=
  ∀ (s u v : State) (t t0 : Nat) (cmd cmd' : Option CmdWord) (ok : Bool),
    tick t cmd ok t0 s = .next u → tick t cmd' ok t0 s = .next v →
    u.txPayloads = v.txPayloads ∧ u.restarts = v.restarts ∧ u.heartbeats = v.heartbeats ∧ u.failcnt = v.failcnt
      ∧ u.lastSend = v.lastSend

/-- 60_exceptions.md rule R151 and 45_console.md rule R140, whole, and the same of HELP: a tick that serves a rejected
set command, an unrecognized word or HELP leaves the state that the same tick without a command leaves (`FAILCNT`, the
watchdog, every restart and the heartbeat as without it), but for its one record before the heartbeat; in a deployed
build, or where phase (a) has restarted, not even that. -/
def Obligations.CommandsThatWriteNothingLeaveOnlyARecord : Prop :=
  (∀ (s u v : State) (t t0 : Nat) (w : CmdWord) (ok : Bool) (r : Record),
    ((∃ why, decode w = .unrecognized why) ∧ r = .unrecognized w
      ∨ decode w = .instr .help ∧ r = .helpInfo helpTable
      ∨ ∃ (f : Settable) (x : Nat), f.maxVal < x ∧ decode w = .instr (f.command x) ∧ r = .setRejected f x) →
    tick t (some w) ok t0 s = .next u → tick t none ok t0 s = .next v →
    { u with out := [] } = { v with out := [] } ∧ u.heartbeats = v.heartbeats ∧ u.restarts = v.restarts
      ∧ (s.cfg.consoleEn = true → (s.schedulerPhase (timeReg t) ok).sched ≠ .faulted →
          ∃ before, v.out = before ++ [.hb] ∧ u.out = before ++ [.con r, .hb])
      ∧ (s.cfg.consoleEn = false ∨ (s.schedulerPhase (timeReg t) ok).sched = .faulted → u = v))
    ∧ ∃ why, decode 0x3700#16 = .unrecognized why

/-- A step runs the decoded instruction: where the next event is a tick that presents a word which decodes to `i`, in
a development build, and phase (a) does not restart, the step is `exec i` on the state phase (a) leaves, with the
heartbeat after it; and a word placed by `withFetchWord` in a state that is not due runs so, with phase (a) doing
nothing. What `withFetchWord` places is the model's (log entries 4 and 18). -/
def Obligations.StepRunsTheDecodedInstruction : Prop :=
  (∀ (s : State) (w : CmdWord) (i : Instr), s.Inv → s.cfg.consoleEn = true → decode w = .instr i →
    s.nextDraw.powerOn = false → s.nextDraw.cmd = some w → s.nextDraw.gap < s.cfg.wdtTimeout →
    let t := s.time + s.nextDraw.gap
    let afterA := s.presented.schedulerPhase (timeReg t) s.nextDraw.txOk
    afterA.sched ≠ .faulted →
    step s = andThen (exec i { afterA with phase := .b }) fun b => { b with phase := .c }.supervisorPhase t)
    ∧ ∀ (s : State) (w : Nat) (i : Instr), s.Inv → s.cfg.consoleEn = true → s.isDue (timeReg s.time) = false →
        decode (BitVec.ofNat 16 w) = .instr i →
        step (s.withFetchWord 16 w)
          = andThen (exec i { s.beginEvent with phase := .b }) fun b => { b with phase := .c }.supervisorPhase s.time

/-! ### Whole-machine statements -/

/-- The invariant holds of the state after reset, whose configuration and start time are the model's (log entries 1
and 3). -/
def Obligations.ResetSatisfiesTheInvariant : Prop := State.reset.Inv

/-- Every step keeps the invariant: a valid configuration, canonical memory, every field in its domain, reserved bits
0, `FAILCNT < MAX_FAIL`, `SCHED` Idle, phase (a), the watchdog armed with its timeout and fed at the latest event
(10_state.md section 7, on reachable states, and the sections it rests on). -/
def Obligations.EveryStepKeepsTheInvariant : Prop :=
  ∀ s s' : State, s.Inv → step s = .next s' → s'.Inv

/-- No run stops (70_reset_and_hazards.md section 5, 60_exceptions.md section 1): from every state with the invariant,
whatever the environment draws, the step answers a next state, and time does not go back. -/
def Obligations.NoRunEverStops : Prop :=
  ∀ s : State, s.Inv → GoesTo (step s) fun s' => s'.Inv ∧ s.time ≤ s'.time

/-- The configuration is never written (00_scope.md section 4, decision D25). That it is a field of State is the
model's own choice (log entry 10), and so is the second clause, that a step takes exactly one draw, the first placed
one or the next free one (log entry 2): the spec says neither. -/
def Obligations.ConfigurationIsNeverWritten : Prop :=
  ∀ s s' : State, step s = .next s' →
    s'.cfg = s.cfg
      ∧ ((∃ d, s.inputs = d :: s'.inputs ∧ s'.draws = s.draws)
          ∨ (s.inputs = [] ∧ s'.inputs = [] ∧ s'.draws = s.draws + 1))

/-- Every frame a step transmits is well-formed and fresh (43_scheduler.md section 4): eight bytes whose first is the
XOR of the others, a counter one more modulo 16 than before the step, values in their domains and reserved bits 0;
it is the identifier and length of the block; and a step transmits at most one. -/
def Obligations.TransmittedFramesAreWellFormedAndFresh : Prop :=
  ∀ (s s' : State), s.Inv → step s = .next s' →
    (∀ id len bytes, Output.tx id len bytes ∈ s'.outputs →
      id = s.cfg.netId ∧ len = 8 ∧ bytes = s.encodeFrame.frameBytes ∧ bytes.length = 8 ∧ xorAll bytes = 0
        ∧ (s.encodeFrame.getF .ctr).toNat = ((s.getF .ctr).toNat + 1) % 16
        ∧ s.encodeFrame.fieldsInDomain = true ∧ s.encodeFrame.reservedZero = true)
      ∧ s'.txPayloads.length ≤ 1

/-- A fault episode (43_scheduler.md section 4): from a state of a run whose last attempt (or start) was its last
event, `MAX_FAIL - FAILCNT` further ticks that are all due, all fail and all keep the watchdog fed give exactly one
restart, in the last of them and not before, with a heartbeat in every tick but that one. -/
def Obligations.OneRestartPerFaultEpisode : Prop :=
  ∀ (s : State) (ds rest : List EnvDraw), s.Inv → s.lastSend = timeReg s.time → s.inputs = ds ++ rest →
    ds.length + s.failcnt.toNat = s.cfg.maxFail →
    (∀ d ∈ ds, d.powerOn = false ∧ d.txOk = false ∧ s.cfg.period ≤ d.gap ∧ d.gap < s.cfg.wdtTimeout) →
    ∃ early last s', trace ds.length s = some (early ++ [last], s')
      ∧ (∀ c, ∀ o ∈ early, Output.restart c ∉ o) ∧ (∀ o ∈ early, o.count .hb = 1)
      ∧ last.count (.restart .exhausted) = 1 ∧ last.count (.restart .watchdog) = 0 ∧ last.count .hb = 0
      ∧ s'.failcnt = 0 ∧ (∀ a : FrameAddr, s'.memRead a = 0) ∧ s'.inputs = rest

/-- A success resets the count (43_scheduler.md section 4): after a due tick that succeeds, a whole further episode of
`MAX_FAIL` failures is needed, so `MAX_FAIL - 1` of them give no restart. -/
def Obligations.SuccessResetsTheFailureCount : Prop :=
  ∀ (s : State) (d : EnvDraw) (ds rest : List EnvDraw), s.Inv → s.inputs = d :: ds ++ rest →
    d.powerOn = false → d.txOk = true → s.isDue (timeReg (s.time + d.gap)) = true → d.gap < s.cfg.wdtTimeout →
    ds.length < s.cfg.maxFail → (∀ e ∈ ds, e.powerOn = false ∧ e.gap < s.cfg.wdtTimeout) →
    ∃ outs s', trace (ds.length + 1) s = some (outs, s') ∧ (∀ c, ∀ o ∈ outs, Output.restart c ∉ o)
      ∧ s'.failcnt.toNat ≤ ds.length

/-- Cadence (43_scheduler.md section 4): from a state of a run whose last attempt (or start) was its last event, ticks
less than `PERIOD` after it send nothing, and the first tick at or after `PERIOD` sends; the lateness is less than the
gap before that tick. The condition on `PERIOD + WDT_TIMEOUT` is that of 70_reset_and_hazards.md section 3. -/
def Obligations.NextAttemptComesOnePeriodLater : Prop :=
  ∀ (s : State) (quiet : List EnvDraw) (d : EnvDraw) (rest : List EnvDraw), s.Inv → s.lastSend = timeReg s.time →
    s.inputs = quiet ++ d :: rest → s.cfg.period + s.cfg.wdtTimeout ≤ 2 ^ 32 →
    (∀ e ∈ quiet ++ [d], e.powerOn = false ∧ e.gap < s.cfg.wdtTimeout) →
    (quiet.map EnvDraw.gap).sum < s.cfg.period → s.cfg.period ≤ (quiet.map EnvDraw.gap).sum + d.gap →
    ∃ early last s', trace (quiet.length + 1) s = some (early ++ [last], s') ∧ early.length = quiet.length
      ∧ (∀ o ∈ early, ∀ id len bytes, Output.tx id len bytes ∉ o)
      ∧ (∃ bytes, Output.tx s.cfg.netId 8 bytes ∈ last)
      ∧ s.time + s.cfg.period ≤ s.time + (quiet.map EnvDraw.gap).sum + d.gap
      ∧ s.time + (quiet.map EnvDraw.gap).sum + d.gap < s.time + s.cfg.period + d.gap

/-- A deployed build (45_console.md on the deployed build, decision D19): with `CONSOLE_EN = 0`, a frame whose placed
fields are 0 stays so at every step, every transmitted frame is `0c 0c 00 00 00 00 00 00` with `c` the counter, and
no record is ever emitted, whatever is presented on the command port. -/
def Obligations.DeployedBuildSendsOnlyTheCounter : Prop :=
  ∀ s s' : State, s.Inv → s.cfg.consoleEn = false → s.memRead 1 &&& 0xF0#8 = 0 →
    (∀ a : FrameAddr, 2 ≤ a.val → s.memRead a = 0) → step s = .next s' →
    s'.memRead 1 &&& 0xF0#8 = 0 ∧ (∀ a : FrameAddr, 2 ≤ a.val → s'.memRead a = 0)
      ∧ s'.conRecords = []
      ∧ ∀ bytes ∈ s'.txPayloads, ∃ c : Byte, c.toNat ≤ 15 ∧ bytes = [c, c, 0, 0, 0, 0, 0, 0]

/-- A deployed build ignores the command port (45_console.md on the deployed build, decision D19). -/
def Obligations.DeployedBuildIgnoresTheCommandPort : Prop :=
  ∀ (s : State) (t t0 : Nat) (cmd : Option CmdWord) (ok : Bool), s.cfg.consoleEn = false →
    tick t cmd ok t0 s = tick t none ok t0 s

/-- A power-on reset happens in every state of a block with a valid configuration, reachable or not (44_supervisor.md,
70_reset_and_hazards.md section 1, 60_exceptions.md section 3 "wins over anything"). -/
def Obligations.PowerOnResetWorksFromEveryState : Prop :=
  ∀ s : State, s.cfg.valid = true → s.nextDraw.powerOn = true →
    GoesTo (step s) fun s' => s'.Inv ∧ s' = s.presented.resetSequence (s.time + s.nextDraw.gap) ∧ s'.out = []

/-- What a step refuses, and that it faults nowhere: an invalid configuration (00_scope.md section 4, decision D32),
and, but for a power-on reset, a state no run reaches (93_implementation_defined.md section 2). Both are the model's
reading: a valid configuration has `WDT_TIMEOUT < 2^32` too, where the spec states the lower bound only (log entry 7),
and which states are unreachable, and that a power-on reset happens in them all the same, is log entry 9. -/
def Obligations.StepRefusesInvalidConfigurationsAndUnreachableStates : Prop :=
  ∀ s : State,
    (step s = .refused .invalidConfiguration ↔ s.cfg.valid = false)
      ∧ (step s = .refused .unreachableState ↔
          s.cfg.valid = true ∧ s.nextDraw.powerOn = false ∧ s.atTickBoundary = false)
      ∧ (s.cfg.valid = true → s.nextDraw.powerOn = true ∨ s.atTickBoundary = true → ∃ t, step s = .next t)

/-! ### Memory and ports -/

/-- The canonical form says all there is to say: canonical memories that read alike are equal. (The form is the
model's; log entry 8.) -/
def Obligations.CanonicalMemoryIsDeterminedByItsReads : Prop :=
  ∀ m n : Memory, m.wf = true → n.wf = true → (∀ a : FrameAddr, m.read a.val = n.read a.val) → m = n

/-- `tx_data` (30_encoding.md section 6): lane `i`, bits `8*i + 7 : 8*i`, carries byte `i` of the frame. -/
def Obligations.TxDataLanesCarryTheBytes : Prop :=
  ∀ (s : State) (a : FrameAddr), (txData s.frameBytes).extractLsb' (8 * a.val) 8 = s.memRead a
end

