-- ==== Sys2Proof/Laws/Bits.lean ====
section
/-! SUPPORT. Bit facts of the field masks: reading back what was inserted, and that a field's mask misses the bits of a
field apart from it. -/

namespace Sys2Proof

theorem Field.getLsbD_lowMask (f : Field) (i : Nat) : f.lowMask.getLsbD i = (decide (i < 8) && decide (i < f.width)) := by
  rw [Field.lowMask, BitVec.getLsbD_ofNat, Nat.testBit_two_pow_sub_one]

theorem Layout.getLsbD_mask (L : Layout) (f : Field) (i : Nat) :
    (L.mask f).getLsbD i = (decide (i < 8) && decide (L.shiftOf f ≤ i) && decide (i < L.shiftOf f + f.width)) := by
  rw [Layout.mask, BitVec.getLsbD_shiftLeft, Field.getLsbD_lowMask]
  by_cases h8 : i < 8 <;> by_cases hs : L.shiftOf f ≤ i <;> by_cases hw : i < L.shiftOf f + f.width <;>
    simp [h8, hs, hw] <;> omega

theorem Field.width_pos (f : Field) : 1 ≤ f.width := by cases f <;> decide

theorem Field.width_le (f : Field) : f.width ≤ 8 := by cases f <;> decide

/-- Extracting a field after inserting `x` into it gives the low `w` bits of `x`, for a field inside one byte. -/
theorem Layout.extract_insert (L : Layout) (f : Field) (old x : Byte) (h : L.shiftOf f + f.width ≤ 8) :
    (((old &&& ~~~ L.mask f) ||| ((x <<< L.shiftOf f) &&& L.mask f)) >>> L.shiftOf f) &&& f.lowMask
      = x &&& f.lowMask := by
  apply BitVec.eq_of_getLsbD_eq
  intro i hi
  simp only [BitVec.getLsbD_and, BitVec.getLsbD_or, BitVec.getLsbD_ushiftRight, BitVec.getLsbD_not,
    BitVec.getLsbD_shiftLeft, Layout.getLsbD_mask, Field.getLsbD_lowMask]
  by_cases hw : i < f.width
  · have h8 : L.shiftOf f + i < 8 := by omega
    simp [hi, hw, h8]
  · simp [hw]

/-- Inserting into `f` leaves the extraction of a field of the same byte apart from it. -/
theorem Layout.extract_insert_other (L : Layout) (f g : Field) (old x : Byte)
    (h : L.shiftOf f + f.width ≤ L.shiftOf g ∨ L.shiftOf g + g.width ≤ L.shiftOf f) :
    (((old &&& ~~~ L.mask f) ||| ((x <<< L.shiftOf f) &&& L.mask f)) >>> L.shiftOf g) &&& g.lowMask
      = (old >>> L.shiftOf g) &&& g.lowMask := by
  apply BitVec.eq_of_getLsbD_eq
  intro i hi
  simp only [BitVec.getLsbD_and, BitVec.getLsbD_or, BitVec.getLsbD_ushiftRight, BitVec.getLsbD_not,
    BitVec.getLsbD_shiftLeft, Layout.getLsbD_mask, Field.getLsbD_lowMask]
  by_cases hw : i < g.width
  · have hnot : ¬ (L.shiftOf f ≤ L.shiftOf g + i ∧ L.shiftOf g + i < L.shiftOf f + f.width) := by omega
    by_cases h1 : L.shiftOf f ≤ L.shiftOf g + i
    · have h2 : ¬ L.shiftOf g + i < L.shiftOf f + f.width := fun h2 => hnot ⟨h1, h2⟩
      by_cases h8 : L.shiftOf g + i < 8
      · simp [hi, hw, h1, h2, h8]
      · have : old.getLsbD (L.shiftOf g + i) = false := BitVec.getLsbD_of_ge _ _ (by omega)
        simp [h8, this]
    · by_cases h8 : L.shiftOf g + i < 8
      · simp [hi, hw, h1, h8]
      · have : old.getLsbD (L.shiftOf g + i) = false := BitVec.getLsbD_of_ge _ _ (by omega)
        simp [h8, this]
  · simp [hw]

/-- Inserting into a field touches no bit outside its mask. -/
theorem Layout.insert_outside (L : Layout) (f : Field) (old x b : Byte) (h : b &&& L.mask f = 0) :
    ((old &&& ~~~ L.mask f) ||| ((x <<< L.shiftOf f) &&& L.mask f)) &&& b = old &&& b := by
  apply BitVec.eq_of_getLsbD_eq
  intro i hi
  have hb := congrArg (fun y : Byte => y.getLsbD i) h
  simp only [BitVec.getLsbD_and] at hb
  simp only [BitVec.getLsbD_and, BitVec.getLsbD_or, BitVec.getLsbD_not, decide_eq_true hi]
  cases hbi : b.getLsbD i <;> cases hmi : (L.mask f).getLsbD i <;> simp_all

/-- A value of a field's domain is its own low `w` bits. -/
theorem Settable.and_lowMask (f : Settable) (v : Nat) (h : v ≤ f.maxVal) :
    BitVec.ofNat 8 v &&& f.field.lowMask = BitVec.ofNat 8 v := by
  cases f <;> simp only [Settable.maxVal] at h <;> interval_cases v <;> decide

end Sys2Proof
end

