-- ==== Sys2Proof/Laws/Memory.lean ====
section
/-! SUPPORT. The laws of the frame buffer: a read after a write, and that every operation gives the canonical form. -/

namespace Sys2Proof.Machine

@[simp] theorem Memory.read_nil (a : Nat) : Memory.read [] a = unlistedByte := rfl

@[simp] theorem Memory.read_cons (c : Host.Cell) (m : Memory) (a : Nat) :
    Memory.read (c :: m) a = if c.1 = a then c.2 else Memory.read m a := rfl

theorem Memory.read_filterMap (f : FrameAddr → Byte) (l : List FrameAddr) (a : FrameAddr) :
    Memory.read (l.filterMap (Memory.cellOf f)) a.val = if a ∈ l then f a else unlistedByte := by
  induction l with
  | nil => simp
  | cons b l ih =>
    by_cases hz : f b = unlistedByte
    · by_cases hab : a = b
      · subst hab
        simp [Memory.cellOf, hz, ih]
      · simp [Memory.cellOf, hz, ih, hab]
    · by_cases hab : a = b
      · subst hab
        simp [Memory.cellOf, hz]
      · have hne : b.val ≠ a.val := fun h => hab (Fin.ext h.symm)
        simp [Memory.cellOf, hz, ih, hab, hne]

theorem mem_frameAddrs (a : FrameAddr) : a ∈ frameAddrs := by
  revert a; decide

/-- What memory built from eight bytes reads. -/
@[simp] theorem Memory.read_ofBytes (f : FrameAddr → Byte) (a : FrameAddr) :
    (Memory.ofBytes f).read a.val = f a := by
  simp [Memory.ofBytes, Memory.read_filterMap, mem_frameAddrs]

/-- What memory reads after a write: the byte at the address, every other byte as before. -/
theorem Memory.read_write (m : Memory) (a b : FrameAddr) (v : Byte) :
    (m.write a v).read b.val = if b = a then v else m.read b.val := by
  simp [Memory.write]

@[simp] theorem Memory.read_write_same (m : Memory) (a : FrameAddr) (v : Byte) :
    (m.write a v).read a.val = v := by
  simp [Memory.read_write]

theorem Memory.read_write_other (m : Memory) (a b : FrameAddr) (v : Byte) (h : b ≠ a) :
    (m.write a v).read b.val = m.read b.val := by
  simp [Memory.read_write, h]

theorem Memory.rising_iff (m : Memory) : Memory.rising m = true ↔ (m.map Prod.fst).Pairwise (· < ·) := by
  induction m with
  | nil => simp [Memory.rising]
  | cons c m ih =>
    cases m with
    | nil => simp [Memory.rising]
    | cons d m =>
      obtain ⟨a, x⟩ := c
      obtain ⟨b, y⟩ := d
      rw [Memory.rising, Bool.and_eq_true, ih, decide_eq_true_eq]
      simp only [List.map_cons, List.pairwise_cons, List.mem_cons, forall_eq_or_imp]
      constructor
      · rintro ⟨hab, hb, hm⟩
        exact ⟨⟨hab, fun z hz => hab.trans (hb z hz)⟩, hb, hm⟩
      · rintro ⟨⟨hab, -⟩, hb, hm⟩
        exact ⟨hab, hb, hm⟩

theorem Memory.mem_filterMap_cellOf (f : FrameAddr → Byte) (l : List FrameAddr) (c : Host.Cell)
    (h : c ∈ l.filterMap (Memory.cellOf f)) : ∃ a ∈ l, c = (a.val, f a) ∧ f a ≠ unlistedByte := by
  obtain ⟨a, ha, hc⟩ := List.mem_filterMap.mp h
  refine ⟨a, ha, ?_⟩
  by_cases hz : f a = unlistedByte
  · simp [Memory.cellOf, hz] at hc
  · simp [Memory.cellOf, hz] at hc
    exact ⟨hc.symm, hz⟩

theorem Memory.pairwise_filterMap (f : FrameAddr → Byte) (l : List FrameAddr) (hl : l.Pairwise (· < ·)) :
    ((l.filterMap (Memory.cellOf f)).map Prod.fst).Pairwise (· < ·) := by
  induction l with
  | nil => simp
  | cons b l ih =>
    obtain ⟨hb, hl⟩ := List.pairwise_cons.mp hl
    by_cases hz : f b = unlistedByte
    · simpa [List.filterMap_cons, Memory.cellOf, hz] using ih hl
    · have hcell : Memory.cellOf f b = some (b.val, f b) := by simp [Memory.cellOf, hz]
      rw [List.filterMap_cons_some hcell, List.map_cons, List.pairwise_cons]
      refine ⟨?_, ih hl⟩
      intro x hx
      obtain ⟨c, hc, rfl⟩ := List.mem_map.mp hx
      obtain ⟨a, ha, rfl, -⟩ := Memory.mem_filterMap_cellOf f l c hc
      exact hb a ha

/-- Memory built from eight bytes is canonical. -/
theorem Memory.wf_ofBytes (f : FrameAddr → Byte) : (Memory.ofBytes f).wf = true := by
  have hsorted : frameAddrs.Pairwise (· < ·) := by decide
  rw [Memory.wf, Bool.and_eq_true, Memory.rising_iff, List.all_eq_true]
  refine ⟨Memory.pairwise_filterMap f frameAddrs hsorted, ?_⟩
  intro c hc
  obtain ⟨a, -, rfl, hz⟩ := Memory.mem_filterMap_cellOf f frameAddrs c hc
  simp [hz]

/-- A write gives the canonical form, from any list. -/
@[simp] theorem Memory.wf_write (m : Memory) (a : FrameAddr) (v : Byte) : (m.write a v).wf = true :=
  Memory.wf_ofBytes _

@[simp] theorem Memory.wf_nil : Memory.wf [] = true := rfl

theorem Memory.ofBytes_congr (f g : FrameAddr → Byte) (h : ∀ a, f a = g a) : Memory.ofBytes f = Memory.ofBytes g := by
  rw [funext h]

/-- Two writes depend on the bytes before them only: memories that read alike are written alike. -/
theorem Memory.write_congr (m n : Memory) (a : FrameAddr) (v : Byte)
    (h : ∀ b : FrameAddr, m.read b.val = n.read b.val) : m.write a v = n.write a v :=
  Memory.ofBytes_congr _ _ fun b => by simp [h b]

end Sys2Proof.Machine
end

