-- ==== Sys2Proof/Laws/State.lean ====
section
/-! SUPPORT. One lemma per field per update, so that no proof unfolds a record update. -/

namespace Sys2Proof.Machine

section
variable (s : State) (a : FrameAddr) (v : Byte)

@[simp] theorem State.memWrite_frame : (s.memWrite a v).frame = s.frame.write a v := rfl
@[simp] theorem State.memWrite_failcnt : (s.memWrite a v).failcnt = s.failcnt := rfl
@[simp] theorem State.memWrite_lastSend : (s.memWrite a v).lastSend = s.lastSend := rfl
@[simp] theorem State.memWrite_sched : (s.memWrite a v).sched = s.sched := rfl
@[simp] theorem State.memWrite_phase : (s.memWrite a v).phase = s.phase := rfl
@[simp] theorem State.memWrite_wdtArmed : (s.memWrite a v).wdtArmed = s.wdtArmed := rfl
@[simp] theorem State.memWrite_wdtLimit : (s.memWrite a v).wdtLimit = s.wdtLimit := rfl
@[simp] theorem State.memWrite_wdtFedAt : (s.memWrite a v).wdtFedAt = s.wdtFedAt := rfl
@[simp] theorem State.memWrite_cfg : (s.memWrite a v).cfg = s.cfg := rfl
@[simp] theorem State.memWrite_time : (s.memWrite a v).time = s.time := rfl
@[simp] theorem State.memWrite_inputs : (s.memWrite a v).inputs = s.inputs := rfl
@[simp] theorem State.memWrite_draws : (s.memWrite a v).draws = s.draws := rfl
@[simp] theorem State.memWrite_out : (s.memWrite a v).out = s.out := rfl
@[simp] theorem State.memWrite_resetOut : (s.memWrite a v).resetOut = s.resetOut := rfl

end

section
variable (s : State) (o : Output)

@[simp] theorem State.emit_frame : (s.emit o).frame = s.frame := rfl
@[simp] theorem State.emit_failcnt : (s.emit o).failcnt = s.failcnt := rfl
@[simp] theorem State.emit_lastSend : (s.emit o).lastSend = s.lastSend := rfl
@[simp] theorem State.emit_sched : (s.emit o).sched = s.sched := rfl
@[simp] theorem State.emit_phase : (s.emit o).phase = s.phase := rfl
@[simp] theorem State.emit_wdtArmed : (s.emit o).wdtArmed = s.wdtArmed := rfl
@[simp] theorem State.emit_wdtLimit : (s.emit o).wdtLimit = s.wdtLimit := rfl
@[simp] theorem State.emit_wdtFedAt : (s.emit o).wdtFedAt = s.wdtFedAt := rfl
@[simp] theorem State.emit_cfg : (s.emit o).cfg = s.cfg := rfl
@[simp] theorem State.emit_time : (s.emit o).time = s.time := rfl
@[simp] theorem State.emit_inputs : (s.emit o).inputs = s.inputs := rfl
@[simp] theorem State.emit_draws : (s.emit o).draws = s.draws := rfl
@[simp] theorem State.emit_out : (s.emit o).out = s.out ++ [o] := rfl
@[simp] theorem State.emit_resetOut : (s.emit o).resetOut = s.resetOut := rfl

end

section
variable (s : State) (r : Record)

@[simp] theorem State.emitCon_frame : (s.emitCon r).frame = s.frame := rfl
@[simp] theorem State.emitCon_failcnt : (s.emitCon r).failcnt = s.failcnt := rfl
@[simp] theorem State.emitCon_lastSend : (s.emitCon r).lastSend = s.lastSend := rfl
@[simp] theorem State.emitCon_sched : (s.emitCon r).sched = s.sched := rfl
@[simp] theorem State.emitCon_phase : (s.emitCon r).phase = s.phase := rfl
@[simp] theorem State.emitCon_wdtArmed : (s.emitCon r).wdtArmed = s.wdtArmed := rfl
@[simp] theorem State.emitCon_wdtLimit : (s.emitCon r).wdtLimit = s.wdtLimit := rfl
@[simp] theorem State.emitCon_wdtFedAt : (s.emitCon r).wdtFedAt = s.wdtFedAt := rfl
@[simp] theorem State.emitCon_cfg : (s.emitCon r).cfg = s.cfg := rfl
@[simp] theorem State.emitCon_time : (s.emitCon r).time = s.time := rfl
@[simp] theorem State.emitCon_inputs : (s.emitCon r).inputs = s.inputs := rfl
@[simp] theorem State.emitCon_draws : (s.emitCon r).draws = s.draws := rfl
@[simp] theorem State.emitCon_out : (s.emitCon r).out = s.out ++ [.con r] := rfl
@[simp] theorem State.emitCon_resetOut : (s.emitCon r).resetOut = s.resetOut := rfl

end

section
variable (s : State) (t : Nat)

@[simp] theorem State.heartbeat_frame : (s.heartbeat t).frame = s.frame := rfl
@[simp] theorem State.heartbeat_failcnt : (s.heartbeat t).failcnt = s.failcnt := rfl
@[simp] theorem State.heartbeat_lastSend : (s.heartbeat t).lastSend = s.lastSend := rfl
@[simp] theorem State.heartbeat_sched : (s.heartbeat t).sched = s.sched := rfl
@[simp] theorem State.heartbeat_phase : (s.heartbeat t).phase = s.phase := rfl
@[simp] theorem State.heartbeat_wdtArmed : (s.heartbeat t).wdtArmed = s.wdtArmed := rfl
@[simp] theorem State.heartbeat_wdtLimit : (s.heartbeat t).wdtLimit = s.wdtLimit := rfl
@[simp] theorem State.heartbeat_wdtFedAt : (s.heartbeat t).wdtFedAt = t := rfl
@[simp] theorem State.heartbeat_cfg : (s.heartbeat t).cfg = s.cfg := rfl
@[simp] theorem State.heartbeat_time : (s.heartbeat t).time = s.time := rfl
@[simp] theorem State.heartbeat_inputs : (s.heartbeat t).inputs = s.inputs := rfl
@[simp] theorem State.heartbeat_draws : (s.heartbeat t).draws = s.draws := rfl
@[simp] theorem State.heartbeat_out : (s.heartbeat t).out = s.out ++ [.hb] := rfl
@[simp] theorem State.heartbeat_resetOut : (s.heartbeat t).resetOut = s.resetOut := rfl

end

section
variable (s : State) (timeout t : Nat)

@[simp] theorem State.wdtArm_frame : (s.wdtArm timeout t).frame = s.frame := rfl
@[simp] theorem State.wdtArm_failcnt : (s.wdtArm timeout t).failcnt = s.failcnt := rfl
@[simp] theorem State.wdtArm_lastSend : (s.wdtArm timeout t).lastSend = s.lastSend := rfl
@[simp] theorem State.wdtArm_sched : (s.wdtArm timeout t).sched = s.sched := rfl
@[simp] theorem State.wdtArm_phase : (s.wdtArm timeout t).phase = s.phase := rfl
@[simp] theorem State.wdtArm_wdtArmed : (s.wdtArm timeout t).wdtArmed = true := rfl
@[simp] theorem State.wdtArm_wdtLimit : (s.wdtArm timeout t).wdtLimit = BitVec.ofNat 32 timeout := rfl
@[simp] theorem State.wdtArm_wdtFedAt : (s.wdtArm timeout t).wdtFedAt = t := rfl
@[simp] theorem State.wdtArm_cfg : (s.wdtArm timeout t).cfg = s.cfg := rfl
@[simp] theorem State.wdtArm_time : (s.wdtArm timeout t).time = s.time := rfl
@[simp] theorem State.wdtArm_inputs : (s.wdtArm timeout t).inputs = s.inputs := rfl
@[simp] theorem State.wdtArm_draws : (s.wdtArm timeout t).draws = s.draws := rfl
@[simp] theorem State.wdtArm_out : (s.wdtArm timeout t).out = s.out := rfl
@[simp] theorem State.wdtArm_resetOut :
    (s.wdtArm timeout t).resetOut = s.resetOut ++ [.wdtArm (BitVec.ofNat 32 timeout)] := rfl

end

section
variable (s : State) (t0 : Nat)

@[simp] theorem State.resetSequence_frame : (s.resetSequence t0).frame = [] := rfl
@[simp] theorem State.resetSequence_failcnt : (s.resetSequence t0).failcnt = 0 := rfl
@[simp] theorem State.resetSequence_lastSend : (s.resetSequence t0).lastSend = timeReg t0 := rfl
@[simp] theorem State.resetSequence_sched : (s.resetSequence t0).sched = .idle := rfl
@[simp] theorem State.resetSequence_phase : (s.resetSequence t0).phase = .a := rfl
@[simp] theorem State.resetSequence_wdtArmed : (s.resetSequence t0).wdtArmed = true := rfl
@[simp] theorem State.resetSequence_wdtLimit :
    (s.resetSequence t0).wdtLimit = BitVec.ofNat 32 s.cfg.wdtTimeout := rfl
@[simp] theorem State.resetSequence_wdtFedAt : (s.resetSequence t0).wdtFedAt = t0 := rfl
@[simp] theorem State.resetSequence_cfg : (s.resetSequence t0).cfg = s.cfg := rfl
@[simp] theorem State.resetSequence_time : (s.resetSequence t0).time = t0 := rfl
@[simp] theorem State.resetSequence_inputs : (s.resetSequence t0).inputs = s.inputs := rfl
@[simp] theorem State.resetSequence_draws : (s.resetSequence t0).draws = s.draws := rfl
@[simp] theorem State.resetSequence_out : (s.resetSequence t0).out = s.out := rfl
@[simp] theorem State.resetSequence_resetOut :
    (s.resetSequence t0).resetOut = s.resetOut ++ [.wdtArm (BitVec.ofNat 32 s.cfg.wdtTimeout)] := rfl

end

section
variable (s : State) (f : Settable) (v : Nat)

@[simp] theorem State.putF_failcnt : (s.putF f v).failcnt = s.failcnt := rfl
@[simp] theorem State.putF_lastSend : (s.putF f v).lastSend = s.lastSend := rfl
@[simp] theorem State.putF_sched : (s.putF f v).sched = s.sched := rfl
@[simp] theorem State.putF_phase : (s.putF f v).phase = s.phase := rfl
@[simp] theorem State.putF_wdtArmed : (s.putF f v).wdtArmed = s.wdtArmed := rfl
@[simp] theorem State.putF_wdtLimit : (s.putF f v).wdtLimit = s.wdtLimit := rfl
@[simp] theorem State.putF_wdtFedAt : (s.putF f v).wdtFedAt = s.wdtFedAt := rfl
@[simp] theorem State.putF_cfg : (s.putF f v).cfg = s.cfg := rfl
@[simp] theorem State.putF_time : (s.putF f v).time = s.time := rfl
@[simp] theorem State.putF_inputs : (s.putF f v).inputs = s.inputs := rfl
@[simp] theorem State.putF_draws : (s.putF f v).draws = s.draws := rfl
@[simp] theorem State.putF_out : (s.putF f v).out = s.out := rfl
@[simp] theorem State.putF_resetOut : (s.putF f v).resetOut = s.resetOut := rfl

end

section
variable (s : State)

@[simp] theorem State.ctrAdv_failcnt : s.ctrAdv.failcnt = s.failcnt := rfl
@[simp] theorem State.ctrAdv_lastSend : s.ctrAdv.lastSend = s.lastSend := rfl
@[simp] theorem State.ctrAdv_sched : s.ctrAdv.sched = s.sched := rfl
@[simp] theorem State.ctrAdv_phase : s.ctrAdv.phase = s.phase := rfl
@[simp] theorem State.ctrAdv_wdtArmed : s.ctrAdv.wdtArmed = s.wdtArmed := rfl
@[simp] theorem State.ctrAdv_wdtLimit : s.ctrAdv.wdtLimit = s.wdtLimit := rfl
@[simp] theorem State.ctrAdv_wdtFedAt : s.ctrAdv.wdtFedAt = s.wdtFedAt := rfl
@[simp] theorem State.ctrAdv_cfg : s.ctrAdv.cfg = s.cfg := rfl
@[simp] theorem State.ctrAdv_time : s.ctrAdv.time = s.time := rfl
@[simp] theorem State.ctrAdv_inputs : s.ctrAdv.inputs = s.inputs := rfl
@[simp] theorem State.ctrAdv_draws : s.ctrAdv.draws = s.draws := rfl
@[simp] theorem State.ctrAdv_out : s.ctrAdv.out = s.out := rfl
@[simp] theorem State.ctrAdv_resetOut : s.ctrAdv.resetOut = s.resetOut := rfl

end

section
variable (s : State)

@[simp] theorem State.xorsum_frame : s.xorsum.frame = s.frame.write 0 s.xorOfBytes := rfl
@[simp] theorem State.xorsum_failcnt : s.xorsum.failcnt = s.failcnt := rfl
@[simp] theorem State.xorsum_lastSend : s.xorsum.lastSend = s.lastSend := rfl
@[simp] theorem State.xorsum_sched : s.xorsum.sched = s.sched := rfl
@[simp] theorem State.xorsum_phase : s.xorsum.phase = s.phase := rfl
@[simp] theorem State.xorsum_wdtArmed : s.xorsum.wdtArmed = s.wdtArmed := rfl
@[simp] theorem State.xorsum_wdtLimit : s.xorsum.wdtLimit = s.wdtLimit := rfl
@[simp] theorem State.xorsum_wdtFedAt : s.xorsum.wdtFedAt = s.wdtFedAt := rfl
@[simp] theorem State.xorsum_cfg : s.xorsum.cfg = s.cfg := rfl
@[simp] theorem State.xorsum_time : s.xorsum.time = s.time := rfl
@[simp] theorem State.xorsum_inputs : s.xorsum.inputs = s.inputs := rfl
@[simp] theorem State.xorsum_draws : s.xorsum.draws = s.draws := rfl
@[simp] theorem State.xorsum_out : s.xorsum.out = s.out := rfl
@[simp] theorem State.xorsum_resetOut : s.xorsum.resetOut = s.resetOut := rfl

end

section
variable (s : State)

@[simp] theorem State.encodeFrame_frame : s.encodeFrame.frame = s.ctrAdv.frame.write 0 s.ctrAdv.xorOfBytes := rfl
@[simp] theorem State.encodeFrame_failcnt : s.encodeFrame.failcnt = s.failcnt := rfl
@[simp] theorem State.encodeFrame_lastSend : s.encodeFrame.lastSend = s.lastSend := rfl
@[simp] theorem State.encodeFrame_sched : s.encodeFrame.sched = s.sched := rfl
@[simp] theorem State.encodeFrame_phase : s.encodeFrame.phase = s.phase := rfl
@[simp] theorem State.encodeFrame_wdtArmed : s.encodeFrame.wdtArmed = s.wdtArmed := rfl
@[simp] theorem State.encodeFrame_wdtLimit : s.encodeFrame.wdtLimit = s.wdtLimit := rfl
@[simp] theorem State.encodeFrame_wdtFedAt : s.encodeFrame.wdtFedAt = s.wdtFedAt := rfl
@[simp] theorem State.encodeFrame_cfg : s.encodeFrame.cfg = s.cfg := rfl
@[simp] theorem State.encodeFrame_time : s.encodeFrame.time = s.time := rfl
@[simp] theorem State.encodeFrame_inputs : s.encodeFrame.inputs = s.inputs := rfl
@[simp] theorem State.encodeFrame_draws : s.encodeFrame.draws = s.draws := rfl
@[simp] theorem State.encodeFrame_out : s.encodeFrame.out = s.out := rfl
@[simp] theorem State.encodeFrame_resetOut : s.encodeFrame.resetOut = s.resetOut := rfl

end

section
variable (s : State)

@[simp] theorem State.beginEvent_frame : s.beginEvent.frame = s.frame := rfl
@[simp] theorem State.beginEvent_failcnt : s.beginEvent.failcnt = s.failcnt := rfl
@[simp] theorem State.beginEvent_lastSend : s.beginEvent.lastSend = s.lastSend := rfl
@[simp] theorem State.beginEvent_sched : s.beginEvent.sched = s.sched := rfl
@[simp] theorem State.beginEvent_phase : s.beginEvent.phase = s.phase := rfl
@[simp] theorem State.beginEvent_wdtArmed : s.beginEvent.wdtArmed = s.wdtArmed := rfl
@[simp] theorem State.beginEvent_wdtLimit : s.beginEvent.wdtLimit = s.wdtLimit := rfl
@[simp] theorem State.beginEvent_wdtFedAt : s.beginEvent.wdtFedAt = s.wdtFedAt := rfl
@[simp] theorem State.beginEvent_cfg : s.beginEvent.cfg = s.cfg := rfl
@[simp] theorem State.beginEvent_time : s.beginEvent.time = s.time := rfl
@[simp] theorem State.beginEvent_inputs : s.beginEvent.inputs = s.inputs := rfl
@[simp] theorem State.beginEvent_draws : s.beginEvent.draws = s.draws := rfl
@[simp] theorem State.beginEvent_out : s.beginEvent.out = [] := rfl
@[simp] theorem State.beginEvent_resetOut : s.beginEvent.resetOut = [] := rfl

end

section
variable (s : State) (now : TimeReg)

@[simp] theorem State.transmit_frame : (s.transmit now).frame = s.encodeFrame.frame := rfl
@[simp] theorem State.transmit_failcnt : (s.transmit now).failcnt = s.failcnt := rfl
@[simp] theorem State.transmit_lastSend : (s.transmit now).lastSend = now := rfl
@[simp] theorem State.transmit_sched : (s.transmit now).sched = s.sched := rfl
@[simp] theorem State.transmit_phase : (s.transmit now).phase = s.phase := rfl
@[simp] theorem State.transmit_wdtArmed : (s.transmit now).wdtArmed = s.wdtArmed := rfl
@[simp] theorem State.transmit_wdtLimit : (s.transmit now).wdtLimit = s.wdtLimit := rfl
@[simp] theorem State.transmit_wdtFedAt : (s.transmit now).wdtFedAt = s.wdtFedAt := rfl
@[simp] theorem State.transmit_cfg : (s.transmit now).cfg = s.cfg := rfl
@[simp] theorem State.transmit_time : (s.transmit now).time = s.time := rfl
@[simp] theorem State.transmit_inputs : (s.transmit now).inputs = s.inputs := rfl
@[simp] theorem State.transmit_draws : (s.transmit now).draws = s.draws := rfl
@[simp] theorem State.transmit_out : (s.transmit now).out = s.out ++ [s.encodeFrame.txRequest] := rfl
@[simp] theorem State.transmit_resetOut : (s.transmit now).resetOut = s.resetOut := rfl

end

section
variable (s : State)

@[simp] theorem State.sendSucceeded_frame : s.sendSucceeded.frame = s.frame := rfl
@[simp] theorem State.sendSucceeded_failcnt : s.sendSucceeded.failcnt = 0 := rfl
@[simp] theorem State.sendSucceeded_lastSend : s.sendSucceeded.lastSend = s.lastSend := rfl
@[simp] theorem State.sendSucceeded_sched : s.sendSucceeded.sched = .idle := rfl
@[simp] theorem State.sendSucceeded_phase : s.sendSucceeded.phase = s.phase := rfl
@[simp] theorem State.sendSucceeded_wdtArmed : s.sendSucceeded.wdtArmed = s.wdtArmed := rfl
@[simp] theorem State.sendSucceeded_wdtLimit : s.sendSucceeded.wdtLimit = s.wdtLimit := rfl
@[simp] theorem State.sendSucceeded_wdtFedAt : s.sendSucceeded.wdtFedAt = s.wdtFedAt := rfl
@[simp] theorem State.sendSucceeded_cfg : s.sendSucceeded.cfg = s.cfg := rfl
@[simp] theorem State.sendSucceeded_time : s.sendSucceeded.time = s.time := rfl
@[simp] theorem State.sendSucceeded_inputs : s.sendSucceeded.inputs = s.inputs := rfl
@[simp] theorem State.sendSucceeded_draws : s.sendSucceeded.draws = s.draws := rfl
@[simp] theorem State.sendSucceeded_out : s.sendSucceeded.out = s.out := rfl
@[simp] theorem State.sendSucceeded_resetOut : s.sendSucceeded.resetOut = s.resetOut := rfl

end

section
variable (s : State)

@[simp] theorem State.countFailure_frame : s.countFailure.frame = s.frame := rfl
@[simp] theorem State.countFailure_failcnt : s.countFailure.failcnt = s.failcnt + 1 := rfl
@[simp] theorem State.countFailure_lastSend : s.countFailure.lastSend = s.lastSend := rfl
@[simp] theorem State.countFailure_sched : s.countFailure.sched = s.sched := rfl
@[simp] theorem State.countFailure_phase : s.countFailure.phase = s.phase := rfl
@[simp] theorem State.countFailure_wdtArmed : s.countFailure.wdtArmed = s.wdtArmed := rfl
@[simp] theorem State.countFailure_wdtLimit : s.countFailure.wdtLimit = s.wdtLimit := rfl
@[simp] theorem State.countFailure_wdtFedAt : s.countFailure.wdtFedAt = s.wdtFedAt := rfl
@[simp] theorem State.countFailure_cfg : s.countFailure.cfg = s.cfg := rfl
@[simp] theorem State.countFailure_time : s.countFailure.time = s.time := rfl
@[simp] theorem State.countFailure_inputs : s.countFailure.inputs = s.inputs := rfl
@[simp] theorem State.countFailure_draws : s.countFailure.draws = s.draws := rfl
@[simp] theorem State.countFailure_out : s.countFailure.out = s.out := rfl
@[simp] theorem State.countFailure_resetOut : s.countFailure.resetOut = s.resetOut := rfl

end

section
variable (s : State)

@[simp] theorem State.testThreshold_frame : s.testThreshold.frame = s.frame := rfl
@[simp] theorem State.testThreshold_failcnt : s.testThreshold.failcnt = s.failcnt := rfl
@[simp] theorem State.testThreshold_lastSend : s.testThreshold.lastSend = s.lastSend := rfl
@[simp] theorem State.testThreshold_sched :
    s.testThreshold.sched = if s.thresholdReached then .faulted else .idle := rfl
@[simp] theorem State.testThreshold_phase : s.testThreshold.phase = s.phase := rfl
@[simp] theorem State.testThreshold_wdtArmed : s.testThreshold.wdtArmed = s.wdtArmed := rfl
@[simp] theorem State.testThreshold_wdtLimit : s.testThreshold.wdtLimit = s.wdtLimit := rfl
@[simp] theorem State.testThreshold_wdtFedAt : s.testThreshold.wdtFedAt = s.wdtFedAt := rfl
@[simp] theorem State.testThreshold_cfg : s.testThreshold.cfg = s.cfg := rfl
@[simp] theorem State.testThreshold_time : s.testThreshold.time = s.time := rfl
@[simp] theorem State.testThreshold_inputs : s.testThreshold.inputs = s.inputs := rfl
@[simp] theorem State.testThreshold_draws : s.testThreshold.draws = s.draws := rfl
@[simp] theorem State.testThreshold_out : s.testThreshold.out = s.out := rfl
@[simp] theorem State.testThreshold_resetOut : s.testThreshold.resetOut = s.resetOut := rfl

end

section
variable (s : State) (t : Nat)

@[simp] theorem State.supervisorPhase_frame : (s.supervisorPhase t).frame = s.frame := rfl
@[simp] theorem State.supervisorPhase_failcnt : (s.supervisorPhase t).failcnt = s.failcnt := rfl
@[simp] theorem State.supervisorPhase_lastSend : (s.supervisorPhase t).lastSend = s.lastSend := rfl
@[simp] theorem State.supervisorPhase_sched : (s.supervisorPhase t).sched = s.sched := rfl
@[simp] theorem State.supervisorPhase_phase : (s.supervisorPhase t).phase = .a := rfl
@[simp] theorem State.supervisorPhase_wdtArmed : (s.supervisorPhase t).wdtArmed = s.wdtArmed := rfl
@[simp] theorem State.supervisorPhase_wdtLimit : (s.supervisorPhase t).wdtLimit = s.wdtLimit := rfl
@[simp] theorem State.supervisorPhase_wdtFedAt : (s.supervisorPhase t).wdtFedAt = t := rfl
@[simp] theorem State.supervisorPhase_cfg : (s.supervisorPhase t).cfg = s.cfg := rfl
@[simp] theorem State.supervisorPhase_time : (s.supervisorPhase t).time = t := rfl
@[simp] theorem State.supervisorPhase_inputs : (s.supervisorPhase t).inputs = s.inputs := rfl
@[simp] theorem State.supervisorPhase_draws : (s.supervisorPhase t).draws = s.draws := rfl
@[simp] theorem State.supervisorPhase_out : (s.supervisorPhase t).out = s.out ++ [.hb] := rfl
@[simp] theorem State.supervisorPhase_resetOut : (s.supervisorPhase t).resetOut = s.resetOut := rfl

end

end Sys2Proof.Machine
end

