-- ==== Sys2Proof/Laws/Ops.lean ====
section
/-! SUPPORT. What each shared operation can do, said once: the memory primitives, the field primitives, and the
dispatch of a command. -/

namespace Sys2Proof.Machine

/-! ### Which operations leave the bytes and the fields as they are -/

theorem State.memRead_congr {s t : State} (h : t.frame = s.frame) (a : FrameAddr) : t.memRead a = s.memRead a := by
  rw [State.memRead, h, State.memRead]

theorem State.getF_congr {s t : State} (hc : t.cfg = s.cfg) (h : ∀ a : FrameAddr, t.memRead a = s.memRead a)
    (f : Field) : t.getF f = s.getF f := by
  rw [State.getF, hc, h, State.getF]

theorem State.frameBytes_congr {s t : State} (h : ∀ a : FrameAddr, t.memRead a = s.memRead a) :
    t.frameBytes = s.frameBytes := by
  rw [State.frameBytes, funext h, State.frameBytes]

theorem State.xorOfBytes_congr {s t : State} (h : ∀ a : FrameAddr, t.memRead a = s.memRead a) :
    t.xorOfBytes = s.xorOfBytes := by
  simp only [State.xorOfBytes, h]

@[simp] theorem State.memRead_emit (s : State) (o : Output) (a : FrameAddr) : (s.emit o).memRead a = s.memRead a := rfl

@[simp] theorem State.memRead_emitCon (s : State) (r : Record) (a : FrameAddr) :
    (s.emitCon r).memRead a = s.memRead a := rfl

@[simp] theorem State.getF_emitCon (s : State) (r : Record) (f : Field) : (s.emitCon r).getF f = s.getF f := rfl

@[simp] theorem State.memRead_beginEvent (s : State) (a : FrameAddr) : s.beginEvent.memRead a = s.memRead a := rfl

@[simp] theorem State.memRead_resetSequence (s : State) (t0 : Nat) (a : FrameAddr) :
    (s.resetSequence t0).memRead a = 0 := rfl

@[simp] theorem State.frameBytes_eq (s : State) :
    s.frameBytes = [s.memRead 0, s.memRead 1, s.memRead 2, s.memRead 3, s.memRead 4, s.memRead 5, s.memRead 6,
      s.memRead 7] := rfl

/-! ### The memory primitives -/

/-- A write changes the byte at its address and no other. -/
theorem State.memRead_memWrite (s : State) (a b : FrameAddr) (v : Byte) :
    (s.memWrite a v).memRead b = if b = a then v else s.memRead b :=
  Memory.read_write s.frame a b v

@[simp] theorem State.memRead_memWrite_same (s : State) (a : FrameAddr) (v : Byte) : (s.memWrite a v).memRead a = v := by
  simp [State.memRead_memWrite]

theorem State.memRead_memWrite_other (s : State) (a b : FrameAddr) (v : Byte) (h : b ≠ a) :
    (s.memWrite a v).memRead b = s.memRead b := by
  simp [State.memRead_memWrite, h]

/-! ### The conditions on a layout, field by field -/

theorem mem_allSettable (f : Settable) : f ∈ allSettable := by cases f <;> decide

theorem mem_allFields (f : Field) : f ∈ allFields := by cases f <;> decide

theorem Layout.fits_of_wellFormed {L : Layout} (h : L.wellFormed = true) (f : Settable) :
    L.byteOf f.field ≠ 0 ∧ L.shiftOf f.field + f.field.width ≤ 8 := by
  have h1 := (Bool.and_eq_true _ _).mp h |>.1
  have h2 := List.all_eq_true.mp h1 f (mem_allSettable f)
  simpa [Layout.fits] using h2

theorem Layout.apart_of_wellFormed {L : Layout} (h : L.wellFormed = true) {f g : Field} (hne : f ≠ g)
    (hb : L.byteOf f = L.byteOf g) :
    L.shiftOf f + f.width ≤ L.shiftOf g ∨ L.shiftOf g + g.width ≤ L.shiftOf f := by
  have h1 := (Bool.and_eq_true _ _).mp h |>.2
  have h2 := List.all_eq_true.mp (List.all_eq_true.mp h1 f (mem_allFields f)) g (mem_allFields g)
  simpa [Layout.apart, hne, hb] using h2

theorem Layout.byteOf_ctr (L : Layout) : L.byteOf .ctr = 1 := rfl

theorem Layout.shiftOf_ctr (L : Layout) : L.shiftOf .ctr = 0 := rfl

theorem Layout.mask_ctr (L : Layout) : L.mask .ctr = 0x0F#8 := by
  rw [Layout.mask, Layout.shiftOf_ctr]; decide

theorem Config.layout_wellFormed {c : Config} (h : c.valid = true) : c.layout.wellFormed = true :=
  ((Bool.and_eq_true _ _).mp h).2

/-- The bounds a valid configuration meets. -/
theorem Config.bounds_of_valid {c : Config} (h : c.valid = true) :
    c.period < 2 ^ 32 ∧ 1 ≤ c.maxFail ∧ c.maxFail ≤ 255 ∧ 1 ≤ c.wdtTimeout ∧ c.wdtTimeout < 2 ^ 32 := by
  simp only [Config.valid, Bool.and_eq_true, decide_eq_true_eq] at h
  omega

/-! ### The field primitives -/

theorem State.putF_eq (s : State) (f : Settable) (v : Nat) :
    s.putF f v = s.memWrite (s.cfg.layout.byteOf f.field)
      ((s.memRead (s.cfg.layout.byteOf f.field) &&& ~~~ s.cfg.layout.mask f.field)
        ||| ((BitVec.ofNat 8 v <<< s.cfg.layout.shiftOf f.field) &&& s.cfg.layout.mask f.field)) := rfl

/-- What an accepted setter does. -/
theorem State.setF_accepted (s : State) (f : Settable) (v : Nat) (h : v ≤ f.maxVal) :
    s.setF f v = (s.putF f v).emitCon (.setOk f v) := by
  simp [State.setF, accepts, h]

/-- What a rejected setter does. -/
theorem State.setF_rejected (s : State) (f : Settable) (v : Nat) (h : f.maxVal < v) :
    s.setF f v = s.emitCon (.setRejected f v) := by
  simp [State.setF, accepts, Nat.not_le.mpr h]

/-- The frame after a setter is the frame before, or that of an in-domain `PUTF`; and there is one more record. -/
theorem State.setF_cases (s : State) (f : Settable) (v : Nat) :
    (v ≤ f.maxVal ∧ s.setF f v = { s with frame := (s.putF f v).frame, out := s.out ++ [.con (.setOk f v)] })
      ∨ (f.maxVal < v ∧ s.setF f v = { s with out := s.out ++ [.con (.setRejected f v)] }) := by
  rcases Nat.lt_or_ge f.maxVal v with h | h
  · exact .inr ⟨h, s.setF_rejected f v h⟩
  · exact .inl ⟨h, s.setF_accepted f v h⟩

/-! ### Commands -/

/-- All that a command can do: write one field within its domain or nothing, and emit one record. -/
theorem exec_cases (i : Instr) (s : State) :
    ∃ (m : Memory) (r : Record), exec i s = .next { s with frame := m, out := s.out ++ [.con r] }
      ∧ (m = s.frame ∨ ∃ f v, v ≤ f.maxVal ∧ m = (s.putF f v).frame) := by
  have key : ∀ f v, ∃ (m : Memory) (r : Record),
      Host.Outcome.next (φ := Fault) (ρ := Refusal) (s.setF f v) = .next { s with frame := m, out := s.out ++ [.con r] }
        ∧ (m = s.frame ∨ ∃ f v, v ≤ f.maxVal ∧ m = (s.putF f v).frame) := by
    intro f v
    rcases s.setF_cases f v with ⟨hv, h⟩ | ⟨-, h⟩
    · exact ⟨_, _, by rw [h], .inr ⟨f, v, hv, rfl⟩⟩
    · exact ⟨_, _, by rw [h], .inl rfl⟩
  cases i with
  | help => exact ⟨_, _, rfl, .inl rfl⟩
  | status => exact ⟨_, _, rfl, .inl rfl⟩
  | setCtr v => exact key .ctr v
  | setWarn v => exact key .warn v
  | setPrefill v => exact key .prefill v
  | setDecel v => exact key .decel v
  | setDecelNv v => exact key .decelNv v
  | setDrvbrk v => exact key .drvbrk v

/-- All that serving a word can do. -/
theorem serve_cases (w : CmdWord) (s : State) :
    ∃ (m : Memory) (r : Record), serve w s = .next { s with frame := m, out := s.out ++ [.con r] }
      ∧ (m = s.frame ∨ ∃ f v, v ≤ f.maxVal ∧ m = (s.putF f v).frame) := by
  unfold serve
  split
  · exact exec_cases _ s
  · exact ⟨_, _, rfl, .inl rfl⟩

/-- All that phase (b) can do: nothing, or, with a console and a command, what serving a word can do. -/
theorem consolePhase_cases (cmd : Option CmdWord) (s : State) :
    consolePhase cmd s = .next s
      ∨ (s.cfg.consoleEn = true ∧ ∃ (m : Memory) (r : Record),
          consolePhase cmd s = .next { s with frame := m, out := s.out ++ [.con r] }
            ∧ (m = s.frame ∨ ∃ f v, v ≤ f.maxVal ∧ m = (s.putF f v).frame)) := by
  cases cmd with
  | none => exact .inl rfl
  | some w =>
    by_cases hc : s.cfg.consoleEn = true
    · exact .inr ⟨hc, by simpa [consolePhase, hc] using serve_cases w s⟩
    · exact .inl (by simp [consolePhase, hc])

end Sys2Proof.Machine
end

