-- ==== Sys2Proof/Laws/PerInstr.lean ====
section
/-! SUPPORT. A family of facts stated per instruction: the word the encoder gives lies in the instruction's row of the
opcode map, and carries the operand in its low byte. -/

namespace Sys2Proof.Laws.WordLiesInItsRow

/-- The encoder's word of a well-formed instruction is in the instruction's own row, which is one of the eight of
30_encoding.md rule R50. -/
def Statement (i : Instr) : Prop :=
  i.wellFormed = true → i.row ∈ opcodeRows ∧ i.row.selects (encode i) = true

/-- A set command's word under the mask of its row (30_encoding.md rule R50). -/
theorem setWord_masked (fsel : BitVec 4) (v : Nat) : setWord fsel v &&& 0xFF00#16 = setWord fsel 0 := by
  rw [setWord, setWord]
  generalize BitVec.ofNat 8 v = b
  revert fsel b
  decide

theorem of_setWord {fsel : BitVec 4} {v : Nat} {r : OpcodeRow} (hr : r ∈ opcodeRows)
    (hm : r = ⟨setWord fsel 0, 0xFF00#16⟩) : r ∈ opcodeRows ∧ r.selects (setWord fsel v) = true := by
  refine ⟨hr, ?_⟩
  subst hm
  simp [OpcodeRow.selects, setWord_masked]

theorem help : Statement .help := fun _ => by decide
theorem status : Statement .status := fun _ => by decide
theorem setCtr (v : Nat) : Statement (.setCtr v) := fun _ => of_setWord (by decide : Instr.row (.setCtr 0) ∈ _) rfl
theorem setWarn (v : Nat) : Statement (.setWarn v) := fun _ => of_setWord (by decide : Instr.row (.setWarn 0) ∈ _) rfl
theorem setPrefill (v : Nat) : Statement (.setPrefill v) :=
  fun _ => of_setWord (by decide : Instr.row (.setPrefill 0) ∈ _) rfl
theorem setDecel (v : Nat) : Statement (.setDecel v) :=
  fun _ => of_setWord (by decide : Instr.row (.setDecel 0) ∈ _) rfl
theorem setDecelNv (v : Nat) : Statement (.setDecelNv v) :=
  fun _ => of_setWord (by decide : Instr.row (.setDecelNv 0) ∈ _) rfl
theorem setDrvbrk (v : Nat) : Statement (.setDrvbrk v) :=
  fun _ => of_setWord (by decide : Instr.row (.setDrvbrk 0) ∈ _) rfl

end Sys2Proof.Laws.WordLiesInItsRow
end

