-- ==== Sys2Proof/Laws/Tick.lean ====
section
/-! SUPPORT. What phase (a), a tick and a step can do, said once. -/

namespace Sys2Proof.Machine

@[simp] theorem State.drawTaken_frame (s : State) : s.drawTaken.frame = s.frame := by unfold State.drawTaken; split <;> rfl
@[simp] theorem State.drawTaken_failcnt (s : State) : s.drawTaken.failcnt = s.failcnt := by
  unfold State.drawTaken; split <;> rfl
@[simp] theorem State.drawTaken_lastSend (s : State) : s.drawTaken.lastSend = s.lastSend := by
  unfold State.drawTaken; split <;> rfl
@[simp] theorem State.drawTaken_sched (s : State) : s.drawTaken.sched = s.sched := by unfold State.drawTaken; split <;> rfl
@[simp] theorem State.drawTaken_phase (s : State) : s.drawTaken.phase = s.phase := by unfold State.drawTaken; split <;> rfl
@[simp] theorem State.drawTaken_wdtArmed (s : State) : s.drawTaken.wdtArmed = s.wdtArmed := by
  unfold State.drawTaken; split <;> rfl
@[simp] theorem State.drawTaken_wdtLimit (s : State) : s.drawTaken.wdtLimit = s.wdtLimit := by
  unfold State.drawTaken; split <;> rfl
@[simp] theorem State.drawTaken_wdtFedAt (s : State) : s.drawTaken.wdtFedAt = s.wdtFedAt := by
  unfold State.drawTaken; split <;> rfl
@[simp] theorem State.drawTaken_cfg (s : State) : s.drawTaken.cfg = s.cfg := by unfold State.drawTaken; split <;> rfl
@[simp] theorem State.drawTaken_time (s : State) : s.drawTaken.time = s.time := by unfold State.drawTaken; split <;> rfl

/-- Where a draw has been placed, it is the one taken. -/
theorem State.drawTaken_cons (s : State) (d : EnvDraw) (rest : List EnvDraw) (h : s.inputs = d :: rest) :
    s.nextDraw = d ∧ s.drawTaken = { s with inputs := rest } := by
  simp [State.nextDraw, State.drawTaken, h]

@[simp] theorem State.presented_frame (s : State) : s.presented.frame = s.frame := s.drawTaken_frame
@[simp] theorem State.presented_failcnt (s : State) : s.presented.failcnt = s.failcnt := s.drawTaken_failcnt
@[simp] theorem State.presented_lastSend (s : State) : s.presented.lastSend = s.lastSend := s.drawTaken_lastSend
@[simp] theorem State.presented_sched (s : State) : s.presented.sched = s.sched := s.drawTaken_sched
@[simp] theorem State.presented_phase (s : State) : s.presented.phase = s.phase := s.drawTaken_phase
@[simp] theorem State.presented_wdtArmed (s : State) : s.presented.wdtArmed = s.wdtArmed := s.drawTaken_wdtArmed
@[simp] theorem State.presented_wdtLimit (s : State) : s.presented.wdtLimit = s.wdtLimit := s.drawTaken_wdtLimit
@[simp] theorem State.presented_wdtFedAt (s : State) : s.presented.wdtFedAt = s.wdtFedAt := s.drawTaken_wdtFedAt
@[simp] theorem State.presented_cfg (s : State) : s.presented.cfg = s.cfg := s.drawTaken_cfg
@[simp] theorem State.presented_time (s : State) : s.presented.time = s.time := s.drawTaken_time
@[simp] theorem State.presented_out (s : State) : s.presented.out = [] := rfl
@[simp] theorem State.presented_resetOut (s : State) : s.presented.resetOut = [] := rfl

/-- What the tick-boundary test reads. -/
theorem State.atTickBoundary_congr {s t : State} (hf : t.frame = s.frame) (hn : t.failcnt = s.failcnt)
    (hs : t.sched = s.sched) (hp : t.phase = s.phase) (hw : t.wdtArmed = s.wdtArmed) (hc : t.cfg = s.cfg) :
    t.atTickBoundary = s.atTickBoundary := by
  simp only [State.atTickBoundary, State.fieldsInDomain, State.reservedZero, State.getF, State.memRead, hf, hn, hs, hp,
    hw, hc]
  rfl

@[simp] theorem State.presented_atTickBoundary (s : State) : s.presented.atTickBoundary = s.atTickBoundary :=
  State.atTickBoundary_congr (by simp) (by simp) (by simp) (by simp) (by simp) (by simp)

/-- The tick-boundary test taken apart (10_state.md rule R26). -/
theorem State.atTickBoundary_iff (s : State) :
    s.atTickBoundary = true ↔ s.fieldsInDomain = true ∧ s.reservedZero = true ∧ s.failcnt.toNat < s.cfg.maxFail
      ∧ s.sched = .idle ∧ s.phase = .a ∧ s.wdtArmed = true := by
  simp [State.atTickBoundary, and_assoc]

theorem State.fieldsInDomain_iff (s : State) :
    s.fieldsInDomain = true ↔ ∀ f : Settable, (s.getF f.field).toNat ≤ f.maxVal := by
  simp only [State.fieldsInDomain, List.all_eq_true, decide_eq_true_eq]
  exact ⟨fun h f => h f (mem_allSettable f), fun h f _ => h f⟩

theorem State.reservedZero_iff (s : State) :
    s.reservedZero = true ↔ ∀ a : FrameAddr, s.memRead a &&& s.cfg.layout.reservedBits a = 0 := by
  simp only [State.reservedZero, List.all_eq_true, beq_iff_eq]
  exact ⟨fun h a => h a (mem_frameAddrs a), fun h a _ => h a⟩

/-- The due test as a comparison (43_scheduler.md rule R103). -/
theorem State.isDue_iff (s : State) (now : TimeReg) : s.isDue now = true ↔ s.cfg.period ≤ (now - s.lastSend).toNat :=
  decide_eq_true_iff

/-- The watchdog's test as a comparison (44_supervisor.md rules R125, R126). -/
theorem State.watchdogFires_iff (s : State) (t : Nat) (e : Bool) :
    s.watchdogFires t e = true ↔ s.wdtArmed = true
      ∧ (s.wdtLimit.toNat < t - s.wdtFedAt ∨ (t - s.wdtFedAt = s.wdtLimit.toNat ∧ e = true)) := by
  simp [State.watchdogFires]

/-- All that a failed send does. -/
theorem State.sendFailed_eq (s : State) : s.sendFailed = { s with
    failcnt := s.failcnt + 1
    out := s.out ++ (if s.cfg.consoleEn then [.con (.txFailed (s.failcnt + 1))] else [])
    sched := if s.cfg.maxFail ≤ (s.failcnt + 1).toNat then .faulted else .idle } := by
  rcases Bool.eq_false_or_eq_true s.cfg.consoleEn with hc | hc <;>
    simp [State.sendFailed, State.testThreshold, State.reportFailure, State.countFailure, State.thresholdReached,
      State.emitCon, State.emit, hc]

/-- All that phase (a) can do: nothing, a successful attempt, or a failed one. -/
theorem State.schedulerPhase_cases (s : State) (now : TimeReg) (ok : Bool) :
    (s.isDue now = false ∧ s.schedulerPhase now ok = s)
      ∨ (s.isDue now = true ∧ ok = true ∧ s.schedulerPhase now ok = { s with
          frame := s.encodeFrame.frame
          out := s.out ++ [s.encodeFrame.txRequest]
          lastSend := now
          failcnt := 0
          sched := .idle })
      ∨ (s.isDue now = true ∧ ok = false ∧ s.schedulerPhase now ok = { s with
          frame := s.encodeFrame.frame
          out := s.out ++ s.encodeFrame.txRequest
            :: (if s.cfg.consoleEn then [.con (.txFailed (s.failcnt + 1))] else [])
          lastSend := now
          failcnt := s.failcnt + 1
          sched := if s.cfg.maxFail ≤ (s.failcnt + 1).toNat then .faulted else .idle }) := by
  rcases Bool.eq_false_or_eq_true (s.isDue now) with hd | hd
  · right
    cases ok with
    | true =>
      refine .inl ⟨hd, rfl, ?_⟩
      rw [State.schedulerPhase, if_pos hd]
      rfl
    | false =>
      refine .inr ⟨hd, rfl, ?_⟩
      rw [State.schedulerPhase, if_pos hd]
      rw [State.attempt, if_neg Bool.false_ne_true, State.sendFailed_eq]
      simp only [State.transmit_out, State.transmit_cfg, State.transmit_failcnt, List.append_assoc, List.cons_append,
        List.nil_append]
      rfl
  · exact .inl ⟨hd, by rw [State.schedulerPhase, if_neg (by simp [hd])]⟩

/-- All that a tick can do: a restart out of phase (a), or phases (b) and (c) after it. -/
theorem tick_cases (t : Nat) (cmd : Option CmdWord) (ok : Bool) (t0 : Nat) (s : State) :
    ((s.schedulerPhase (timeReg t) ok).sched = .faulted
        ∧ tick t cmd ok t0 s = .next ((s.schedulerPhase (timeReg t) ok).forceRestart t0))
      ∨ ((s.schedulerPhase (timeReg t) ok).sched ≠ .faulted
        ∧ tick t cmd ok t0 s
          = andThen (consolePhase cmd { s.schedulerPhase (timeReg t) ok with phase := .b }) fun b =>
              { b with phase := .c }.supervisorPhase t) := by
  by_cases h : (s.schedulerPhase (timeReg t) ok).sched = .faulted
  · exact .inl ⟨h, by simp only [tick, if_pos h]⟩
  · exact .inr ⟨h, by simp only [tick, if_neg h]⟩

/-- What phase (a) leaves alone, whatever it does. -/
theorem State.schedulerPhase_frame_rule (s : State) (now : TimeReg) (ok : Bool) :
    let u := s.schedulerPhase now ok
    u.cfg = s.cfg ∧ u.phase = s.phase ∧ u.time = s.time ∧ u.wdtArmed = s.wdtArmed ∧ u.wdtLimit = s.wdtLimit
      ∧ u.wdtFedAt = s.wdtFedAt ∧ u.inputs = s.inputs ∧ u.draws = s.draws ∧ u.resetOut = s.resetOut := by
  rcases s.schedulerPhase_cases now ok with ⟨-, e⟩ | ⟨-, -, e⟩ | ⟨-, -, e⟩ <;> simp only [e] <;> simp

/-- The state a tick leaves: the restart of what phase (a) leaves, or that with at most one in-domain field write, at
most one response record and one heartbeat. -/
theorem tick_effect {s u : State} {t t0 : Nat} {cmd : Option CmdWord} {ok : Bool} (h : tick t cmd ok t0 s = .next u) :
    ((s.schedulerPhase (timeReg t) ok).sched = .faulted ∧ u = (s.schedulerPhase (timeReg t) ok).forceRestart t0)
      ∨ ((s.schedulerPhase (timeReg t) ok).sched ≠ .faulted
        ∧ ∃ (m : Memory) (response : List Output),
            u = { s.schedulerPhase (timeReg t) ok with
              frame := m
              phase := .a
              time := t
              wdtFedAt := t
              out := (s.schedulerPhase (timeReg t) ok).out ++ response ++ [.hb] }
            ∧ (response = [] ∨ (s.cfg.consoleEn = true ∧ ∃ r, response = [.con r]))
            ∧ (m = (s.schedulerPhase (timeReg t) ok).frame
              ∨ (s.cfg.consoleEn = true
                ∧ ∃ f v, v ≤ f.maxVal ∧ m = ((s.schedulerPhase (timeReg t) ok).putF f v).frame))) := by
  have hcfg := (s.schedulerPhase_frame_rule (timeReg t) ok).1
  rcases tick_cases t cmd ok t0 s with ⟨hf, ht⟩ | ⟨hf, ht⟩
  · rw [ht] at h
    exact .inl ⟨hf, (Host.Outcome.next.inj h).symm⟩
  · refine .inr ⟨hf, ?_⟩
    rw [ht] at h
    rcases consolePhase_cases cmd { s.schedulerPhase (timeReg t) ok with phase := .b } with hc | ⟨hen, m, r, hc, hm⟩
    · rw [hc] at h
      refine ⟨(s.schedulerPhase (timeReg t) ok).frame, [], ?_, .inl rfl, .inl rfl⟩
      rw [← Host.Outcome.next.inj h]
      simp [State.supervisorPhase, State.heartbeat, State.emit]
    · rw [hc] at h
      have hen' : s.cfg.consoleEn = true := hcfg ▸ hen
      refine ⟨m, [.con r], ?_, .inr ⟨hen', r, rfl⟩, ?_⟩
      · rw [← Host.Outcome.next.inj h]
        simp [State.supervisorPhase, State.heartbeat, State.emit]
      · rcases hm with hm | ⟨f, v, hv, hm⟩
        · exact .inl hm
        · exact .inr ⟨hen', f, v, hv, hm⟩

/-- A tick always answers a next state. -/
theorem tick_next (t : Nat) (cmd : Option CmdWord) (ok : Bool) (t0 : Nat) (s : State) :
    ∃ u, tick t cmd ok t0 s = .next u := by
  rcases tick_cases t cmd ok t0 s with ⟨-, h⟩ | ⟨-, h⟩
  · exact ⟨_, h⟩
  · rcases consolePhase_cases cmd { s.schedulerPhase (timeReg t) ok with phase := .b } with hc | ⟨-, m, r, hc, -⟩ <;>
      exact ⟨_, by rw [h, hc]; rfl⟩

/-! ### A step, by the event it performs -/

theorem step_of_powerOn (s : State) (hv : s.cfg.valid = true) (hp : s.nextDraw.powerOn = true) :
    step s = .next (s.presented.resetSequence (s.time + s.nextDraw.gap)) := by
  simp [step, runEvent, hv, State.nextEvent, hp, perform, State.presented]

theorem step_of_expiry (s : State) (hv : s.cfg.valid = true) (hb : s.atTickBoundary = true)
    (hp : s.nextDraw.powerOn = false)
    (hw : s.watchdogFires (s.time + s.nextDraw.gap) s.nextDraw.expireAtLimit = true) :
    step s = .next (s.presented.wdtExpire (s.time + s.nextDraw.gap + s.nextDraw.latency)) := by
  have hb' : s.drawTaken.beginEvent.atTickBoundary = true := s.presented_atTickBoundary.trans hb
  simp [step, runEvent, hv, State.nextEvent, hp, hw, perform, hb', State.presented]

theorem step_of_tick (s : State) (hv : s.cfg.valid = true) (hb : s.atTickBoundary = true)
    (hp : s.nextDraw.powerOn = false)
    (hw : s.watchdogFires (s.time + s.nextDraw.gap) s.nextDraw.expireAtLimit = false) :
    step s = tick (s.time + s.nextDraw.gap) s.nextDraw.cmd s.nextDraw.txOk
      (s.time + s.nextDraw.gap + s.nextDraw.latency) s.presented := by
  have hb' : s.drawTaken.beginEvent.atTickBoundary = true := s.presented_atTickBoundary.trans hb
  simp [step, runEvent, hv, State.nextEvent, hp, hw, perform, hb', State.presented]

theorem step_of_invalid (s : State) (hv : s.cfg.valid = false) : step s = .refused .invalidConfiguration := by
  simp [step, runEvent, hv]

theorem step_of_unreachable (s : State) (hv : s.cfg.valid = true) (hb : s.atTickBoundary = false)
    (hp : s.nextDraw.powerOn = false) : step s = .refused .unreachableState := by
  have hb' : s.drawTaken.beginEvent.atTickBoundary = false := s.presented_atTickBoundary.trans hb
  rcases Bool.eq_false_or_eq_true (s.watchdogFires (s.time + s.nextDraw.gap) s.nextDraw.expireAtLimit) with hw | hw <;>
    simp [step, runEvent, hv, State.nextEvent, hp, hw, perform, hb']

/-- All that a step can do that answers a next state. -/
theorem step_cases {s s' : State} (h : step s = .next s') :
    s.cfg.valid = true
      ∧ ((s.nextDraw.powerOn = true ∧ s' = s.presented.resetSequence (s.time + s.nextDraw.gap))
        ∨ (s.nextDraw.powerOn = false ∧ s.atTickBoundary = true
          ∧ ((s.watchdogFires (s.time + s.nextDraw.gap) s.nextDraw.expireAtLimit = true
                ∧ s' = s.presented.wdtExpire (s.time + s.nextDraw.gap + s.nextDraw.latency))
            ∨ (s.watchdogFires (s.time + s.nextDraw.gap) s.nextDraw.expireAtLimit = false
                ∧ tick (s.time + s.nextDraw.gap) s.nextDraw.cmd s.nextDraw.txOk
                    (s.time + s.nextDraw.gap + s.nextDraw.latency) s.presented = .next s')))) := by
  rcases Bool.eq_false_or_eq_true s.cfg.valid with hv | hv
  · refine ⟨hv, ?_⟩
    rcases Bool.eq_false_or_eq_true s.nextDraw.powerOn with hp | hp
    · rw [step_of_powerOn s hv hp] at h
      exact .inl ⟨hp, (Host.Outcome.next.inj h).symm⟩
    · refine .inr ⟨hp, ?_⟩
      rcases Bool.eq_false_or_eq_true s.atTickBoundary with hb | hb
      · refine ⟨hb, ?_⟩
        rcases Bool.eq_false_or_eq_true (s.watchdogFires (s.time + s.nextDraw.gap) s.nextDraw.expireAtLimit) with hw | hw
        · rw [step_of_expiry s hv hb hp hw] at h
          exact .inl ⟨hw, (Host.Outcome.next.inj h).symm⟩
        · rw [step_of_tick s hv hb hp hw] at h
          exact .inr ⟨hw, h⟩
      · rw [step_of_unreachable s hv hb hp] at h
        cases h
  · rw [step_of_invalid s hv] at h
    cases h

end Sys2Proof.Machine
end

