-- ==== Sys2Proof/Tests/Slice0.lean ====
section
/-! SUPPORT. Tests by kernel evaluation, their expected results taken from 30_encoding.md and 95_test_vectors.md (the
vector is named at each), and the witnesses: states and operands that meet the hypotheses of the statements. -/

namespace Sys2Proof.Tests

open Sys2Proof Sys2Proof.Machine

/-! ### Helpers -/

/-- The next state, if there is one. -/
def after (o : Host.Outcome State Fault Refusal) : Option State :=
  match o with
  | .next s => some s
  | .fault _ => none
  | .refused _ => none

/-- The state after reset with bytes 0 to 2 of its frame as given. -/
def framed (b0 b1 b2 : Byte) : State :=
  { State.reset with frame := Memory.ofBytes fun a => if a = 0 then b0 else if a = 1 then b1 else if a = 2 then b2 else 0 }

/-- A tick `gap` after the previous event. -/
def tickDraw (gap : Nat) (cmd : Option CmdWord) (ok : Bool) : EnvDraw :=
  { powerOn := false, gap := gap, expireAtLimit := false, cmd := cmd, txOk := ok, latency := 0 }

/-- A frame whose bytes 3 to 7 are 0. -/
def row (b0 b1 b2 : Byte) : List Byte := [b0, b1, b2, 0, 0, 0, 0, 0]

/-! ### WellFormed refuses what is ill-formed -/

theorem test_operands_above_255_are_ill_formed :
    (Instr.setCtr 256).wellFormed = false ∧ (Instr.setWarn 256).wellFormed = false
      ∧ (Instr.setPrefill 256).wellFormed = false ∧ (Instr.setDecel 256).wellFormed = false
      ∧ (Instr.setDecelNv 256).wellFormed = false ∧ (Instr.setDrvbrk 1000).wellFormed = false := by decide

/-- 00_scope.md rules R5, R6; 93_implementation_defined.md U3. -/
theorem test_invalid_constants_are_refused :
    Config.reference.valid = true ∧ { Config.reference with period := 2 ^ 32 }.valid = false
      ∧ { Config.reference with period := 2 ^ 32 - 1 }.valid = true
      ∧ { Config.reference with maxFail := 0 }.valid = false ∧ { Config.reference with maxFail := 256 }.valid = false
      ∧ { Config.reference with wdtTimeout := 0 }.valid = false
      ∧ { Config.reference with wdtTimeout := 2 ^ 32 }.valid = false
      ∧ { Config.reference with layout := { Layout.default with warn := ⟨0, 0⟩ } }.valid = false := by decide

/-- 30_encoding.md rule R47: byte 0, out of the byte, two placed fields that overlap, the counter's nibble. -/
theorem test_ill_formed_layouts_are_refused :
    { Layout.default with prefill := ⟨0, 0⟩ }.wellFormed = false
      ∧ { Layout.default with decel := ⟨3, 5⟩ }.wellFormed = false
      ∧ { Layout.default with decel := ⟨3, 4⟩ }.wellFormed = true
      ∧ { Layout.default with drvbrk := ⟨2, 5⟩ }.wellFormed = false
      ∧ { Layout.default with decelNv := ⟨1, 3⟩ }.wellFormed = false := by decide

/-! ### Decoding: one word for each constructor, bit by bit from 30_encoding.md rule R50 -/

theorem test_decode_help : decode 0b0001000000000000#16 = .instr .help := by decide
theorem test_decode_status : decode 0b0010000000000000#16 = .instr .status := by decide
theorem test_decode_set_ctr : decode 0b0011000110000001#16 = .instr (.setCtr 129) := by decide
theorem test_decode_set_warn : decode 0b0011001000001001#16 = .instr (.setWarn 9) := by decide
theorem test_decode_set_prefill : decode 0b0011001100000001#16 = .instr (.setPrefill 1) := by decide
theorem test_decode_set_decel : decode 0b0011010000010000#16 = .instr (.setDecel 16) := by decide
theorem test_decode_set_decel_nv : decode 0b0011010101000000#16 = .instr (.setDecelNv 64) := by decide
theorem test_decode_set_drvbrk : decode 0b0011011011111111#16 = .instr (.setDrvbrk 255) := by decide

/-- V5.5, V5.8, V5.10. -/
theorem test_decode_refuses_by_name :
    decode 0x1001#16 = .unrecognized .operandNotZero ∧ decode 0x3700#16 = .unrecognized .reservedField
      ∧ decode 0x4000#16 = .unrecognized .reservedOp := by decide

theorem test_table_words :
    decodeTableWord 16 0x3209 = some (.setWarn 9) ∧ decodeTableWord 16 0x1000 = some .help
      ∧ decodeTableWord 16 0x3700 = none ∧ decodeTableWord 8 0x10 = none := by decide

/-! ### Commands -/

/-- V5.1. -/
theorem test_help_changes_no_state :
    (after (exec .help (framed 1 2 3))).map (fun s => (s.frameBytes, s.conRecords.map Record.code))
      = some (row 1 2 3, [1]) := by decide

/-- V1.10, as a status listing. -/
theorem test_status_reads_every_field :
    (after (exec .status (framed 0x1C 0x36 0x2A))).map State.conRecords = some [.statusInfo 6 3 0 5 1 0 0x1C] := by
  decide

/-- V5.12. -/
theorem test_status_shows_the_stale_checksum :
    (after (exec .status (framed 0 0x90 0))).map State.conRecords = some [.statusInfo 0 9 0 0 0 0 0] := by decide

/-- V1.1. -/
theorem test_set_ctr_accepts_15_and_keeps_warn :
    (after (exec (.setCtr 15) (framed 0 0x90 0x7F))).map (fun s => (s.frameBytes, s.conRecords))
      = some (row 0 0x9F 0x7F, [.setOk .ctr 15]) := by decide

/-- V1.1. -/
theorem test_set_ctr_rejects_16 :
    (after (exec (.setCtr 16) (framed 0 0x0F 0))).map (fun s => (s.frameBytes, s.conRecords))
      = some (row 0 0x0F 0, [.setRejected .ctr 16]) := by decide

/-- V1.2. -/
theorem test_set_warn_accepts_9 :
    (after (exec (.setWarn 9) (framed 0 0 0))).map (fun s => (s.frameBytes, s.conRecords))
      = some (row 0 0x90 0, [.setOk .warn 9]) := by decide

/-- V1.2. -/
theorem test_set_warn_rejects_10 :
    (after (exec (.setWarn 10) (framed 0 0x90 0))).map (fun s => (s.frameBytes, s.conRecords))
      = some (row 0 0x90 0, [.setRejected .warn 10]) := by decide

/-- V1.7, step 2. -/
theorem test_set_prefill_accepts_1 :
    (after (exec (.setPrefill 1) (framed 0 0x90 0))).map State.frameBytes = some (row 0 0x90 0x01) := by decide

/-- V1.3. -/
theorem test_set_prefill_rejects_2 :
    (after (exec (.setPrefill 2) (framed 0 0 1))).map (fun s => (s.frameBytes, s.conRecords))
      = some (row 0 0 1, [.setRejected .prefill 2]) := by decide

/-- V1.7, step 7. -/
theorem test_set_decel_to_0_keeps_the_neighbours :
    (after (exec (.setDecel 0) (framed 0 0x9F 0x7F))).map State.frameBytes = some (row 0 0x9F 0x61) := by decide

/-- V1.4. -/
theorem test_set_decel_rejects_16 :
    (after (exec (.setDecel 16) (framed 0 0 0x1E))).map (fun s => (s.frameBytes, s.conRecords))
      = some (row 0 0 0x1E, [.setRejected .decel 16]) := by decide

/-- V1.7, step 4. -/
theorem test_set_decel_nv_accepts_1 :
    (after (exec (.setDecelNv 1) (framed 0 0x90 0x1F))).map State.frameBytes = some (row 0 0x90 0x3F) := by decide

/-- V1.5. -/
theorem test_set_decel_nv_rejects_2 :
    (after (exec (.setDecelNv 2) (framed 0 0 0x20))).map (fun s => (s.frameBytes, s.conRecords))
      = some (row 0 0 0x20, [.setRejected .decelNv 2]) := by decide

/-- 41_frame_model.md rule R73, its example. -/
theorem test_set_drvbrk_gives_back_3F :
    (after (exec (.setDrvbrk 0) (framed 0 0 0x7F))).map State.frameBytes = some (row 0 0 0x3F) := by decide

/-- V1.6. -/
theorem test_set_drvbrk_rejects_2 :
    (after (exec (.setDrvbrk 2) (framed 0 0 0x40))).map (fun s => (s.frameBytes, s.conRecords))
      = some (row 0 0 0x40, [.setRejected .drvbrk 2]) := by decide

/-! ### FrameCodec: V2.4, V2.6, V2.7 -/

theorem test_encode_wraps_to_an_all_zero_frame : (framed 0 0x0F 0).encodeFrame.frameBytes = row 0 0 0 := by decide
theorem test_encode_keeps_the_high_nibble : (framed 0 0x9F 0x7F).encodeFrame.frameBytes = row 0xEF 0x90 0x7F := by decide
theorem test_encode_ignores_the_old_checksum :
    (framed 0xAA 0x35 0x2A).encodeFrame.frameBytes = row 0x1C 0x36 0x2A := by decide

/-! ### Steps -/

/-- V3.2: one unit early, a heartbeat only. -/
theorem test_step_not_due :
    (after (step { State.reset with inputs := [tickDraw 199 none true] })).map (fun s => (s.out, s.lastSend))
      = some ([.hb], 0) := by decide

/-- V3.3. -/
theorem test_step_due_and_sent :
    (after (step { State.reset with inputs := [tickDraw 200 none true] })).map
        (fun s => (s.out, s.lastSend, s.failcnt))
      = some ([.tx 0 8 (row 1 1 0), .hb], 200, 0) := by decide

/-- V3.6: the seventh failure. -/
theorem test_step_threshold_restarts :
    (after (step { framed 6 6 0 with
        failcnt := 6, lastSend := 1200, time := 1200, wdtFedAt := 1200
        inputs := [tickDraw 200 (some 0x2000#16) false] })).map
        (fun s => (s.out, s.frameBytes, s.failcnt, s.lastSend, s.wdtFedAt))
      = some ([.tx 0 8 (row 7 7 0), .con (.txFailed 7), .restart .exhausted], row 0 0 0, 0, 1400, 1400) := by decide

/-- V3.6 with `ok = 1`. -/
theorem test_step_status_after_a_send :
    (after (step { framed 6 6 0 with
        failcnt := 6, lastSend := 1200, time := 1200, wdtFedAt := 1200
        inputs := [tickDraw 200 (some 0x2000#16) true] })).map (fun s => (s.out, s.failcnt))
      = some ([.tx 0 8 (row 7 7 0), .con (.statusInfo 7 0 0 0 0 0 7), .hb], 0) := by decide

/-- V4.4. -/
theorem test_step_watchdog_expires :
    (after (step { framed 0 0x90 0 with
        inputs := [{ tickDraw 1000 none true with expireAtLimit := true, latency := 3 }] })).map
        (fun s => (s.out, s.frameBytes, s.failcnt, s.lastSend, s.wdtFedAt))
      = some ([.restart .watchdog], row 0 0 0, 0, 1003, 1003) := by decide

/-- V3.9: a deployed build. -/
theorem test_step_deployed_build_is_silent :
    (after (step { State.reset with
        cfg := { Config.reference with consoleEn := false }, inputs := [tickDraw 200 (some 0x3209#16) false] })).map
        (fun s => (s.out, s.failcnt)) = some ([.tx 0 8 (row 1 1 0), .hb], 1) := by decide

/-- V5.4, in a step of a word placed where a step takes its next command. -/
theorem test_step_serves_the_placed_word :
    (after (step (State.reset.withFetchWord 16 0x0000))).map State.out = some [.con (.unrecognized 0x0000#16), .hb] := by
  decide

/-- P5, the fourth row: the due test across the wrap of the time register. -/
theorem test_due_across_the_wrap :
    { State.reset with lastSend := 0xFFFFFF9C#32 }.isDue (timeReg 4294967395) = false
      ∧ { State.reset with lastSend := 0xFFFFFF9C#32 }.isDue (timeReg 4294967396) = true := by decide

/-! ### Witnesses: the hypotheses of the statements are met -/

theorem witness_DecodeOfEncodeIsTheInstruction :
    (Instr.setDrvbrk 255).wellFormed = true ∧ (Instr.setCtr 0).wellFormed = true ∧ Instr.help.wellFormed = true := by
  decide

theorem witness_EncodeOfDecodeIsTheWord :
    decode 0x31FF#16 = .instr (.setCtr 255) ∧ decode 0x3600#16 = .instr (.setDrvbrk 0) := by decide

theorem witness_OpcodeRowsAgreeWithDecode :
    (⟨0x3600#16, 0xFF00#16⟩ : OpcodeRow) ∈ opcodeRows ∧ (⟨0x3600#16, 0xFF00#16⟩ : OpcodeRow).selects 0x36FF#16 = true
      ∧ decode 0x1000#16 = .instr .help := by decide

theorem witness_UnrecognizedWordsByClause :
    decode 0x0FFF#16 = .unrecognized .reservedOp ∧ decode 0x4000#16 = .unrecognized .reservedOp
      ∧ decode 0x1001#16 = .unrecognized .operandNotZero ∧ decode 0x2FFF#16 = .unrecognized .operandNotZero
      ∧ decode 0x30FF#16 = .unrecognized .reservedField ∧ decode 0x3700#16 = .unrecognized .reservedField := by decide

theorem witness_StatusReportsStoredFields :
    State.reset.cfg.consoleEn = true ∧ State.reset.isDue (timeReg 200) = true
      ∧ (State.reset.schedulerPhase (timeReg 200) true).sched ≠ .faulted
      ∧ (State.reset.schedulerPhase (timeReg 200) false).sched ≠ .faulted
      ∧ (framed 0xEE 0x91 0x7F).cfg.layout = Layout.default
      ∧ (framed 0xEE 0x91 0x7F).frameBytes = [0xEE#8, 0x91#8, 0x7F#8, 0#8, 0#8, 0#8, 0#8, 0#8] := by decide

theorem witness_SetCommandsOfPlacedFields :
    Layout.default.wellFormed = true ∧ State.reset.cfg.layout = Layout.default
      ∧ (framed 0 0x93 0).cfg.layout.wellFormed = true ∧ ((framed 0 0x93 0).getF .warn).toNat ≤ 9
      ∧ (framed 0 0x03 0).memRead 1 = 0x03#8 ∧ (framed 0 0 0x00).memRead 2 = 0x00#8
      ∧ (framed 0 0 0x01).memRead 2 = 0x01#8 ∧ (framed 0 0 0x1F).memRead 2 = 0x1F#8
      ∧ (framed 0 0 0x3F).memRead 2 = 0x3F#8 := by decide

theorem witness_SetCtrSetsTheRollingCounter :
    State.reset.cfg.layout.wellFormed = true ∧ 15 ≤ 15 ∧ 15 < 16 ∧ (framed 0 0x93 0).memRead 1 = 0x93#8 := by decide

theorem witness_ServeDispatchesEveryWord :
    (0x36FF#16).toNat / 4096 = 3 ∧ (0x36FF#16).toNat / 256 % 16 = Settable.drvbrk.field.number
      ∧ (0x3700#16 ≠ 0x1000#16 ∧ 0x3700#16 ≠ 0x2000#16
        ∧ ¬ ((0x3700#16).toNat / 4096 = 3 ∧ 1 ≤ (0x3700#16).toNat / 256 % 16 ∧ (0x3700#16).toNat / 256 % 16 ≤ 6)) := by
  decide

theorem witness_HostCannotReachBeyondTheFields :
    State.reset.cfg.layout.wellFormed = true
      ∧ serve 0x3209#16 State.reset = .next (State.reset.setF .warn 9) ∧ State.reset.fieldsInDomain = true :=
  ⟨by decide, rfl, by decide⟩

theorem witness_PutfWritesOnlyItsMask :
    15 < 2 ^ Settable.decel.field.width ∧ 0 < 2 ^ Settable.prefill.field.width ∧ 1 < 2 ^ Settable.prefill.field.width := by
  decide

theorem witness_SetfIsRangeChecked :
    9 ≤ Settable.warn.maxVal ∧ Settable.warn.maxVal < 10 ∧ State.reset.cfg.layout.wellFormed = true
      ∧ { State.reset with cfg := { Config.reference with consoleEn := false } }.cfg.consoleEn = false := by decide

theorem witness_FieldsAreIsolated :
    State.reset.cfg.layout.wellFormed = true ∧ Field.chk ≠ Settable.warn.field ∧ Field.ctr ≠ Settable.warn.field := by
  decide

theorem witness_FieldValuesRoundTrip :
    (framed 0xEE 0x91 0x7F).cfg.layout.wellFormed = true ∧ (framed 0xEE 0x91 0x7F).atTickBoundary = true
      ∧ 15 ≤ Settable.decel.maxVal := by decide

theorem witness_GettersReadTheirBits :
    (framed 0 0x97 0x7F).atTickBoundary = true ∧ (framed 0 0x97 0x7F).cfg.layout = Layout.default
      ∧ (framed 0 0x97 0x7F).memRead 1 = 0x97#8 ∧ (framed 0 0x97 0x7F).memRead 2 = 0x7F#8
      ∧ (framed 0 0x97 0x5F).memRead 2 = 0x5F#8 := by decide

theorem witness_MasksOfWellFormedLayoutsAreDisjoint :
    Layout.default.wellFormed = true ∧ Field.prefill ≠ Field.decel
      ∧ Layout.default.byteOf .prefill = Layout.default.byteOf .decel ∧ Field.warn ≠ Field.ctr
      ∧ Layout.default.byteOf .warn = 1 := by decide

theorem witness_CtrAdvIncrementsModuloSixteen :
    (framed 0 0x9F 0).memRead 1 = 0x9F#8 ∧ State.reset.isDue (timeReg 200) = true := by decide

theorem witness_XorsumStoresTheXorOfBytesOneToSeven :
    (framed 0xAA 0x91 0x7F).frameBytes.tail = [0x91#8, 0x7F#8, 0#8, 0#8, 0#8, 0#8, 0#8] := by decide

theorem witness_EncodeDependsOnTheFrameAlone :
    State.reset.frameBytes = [0#8, 0#8, 0#8, 0#8, 0#8, 0#8, 0#8, 0#8]
      ∧ ∀ a : FrameAddr, (framed 1 2 3).memRead a = { framed 1 2 3 with failcnt := 5, time := 9 }.memRead a := by decide

theorem witness_EncodeLeavesTheOtherFields :
    State.reset.cfg.layout.wellFormed = true ∧ Field.warn ≠ Field.ctr ∧ Field.warn ≠ Field.chk := by decide

theorem witness_CounterCyclesUnderInterleavedSetters :
    State.reset.cfg.layout.wellFormed = true
      ∧ ∀ run ∈ [[(Settable.warn, 9), (Settable.decel, 16)], []], ∀ p ∈ run, p.1 ≠ Settable.ctr := by decide

theorem witness_NotDueMeansNoChange :
    (timeReg 199 - State.reset.lastSend).toNat < State.reset.cfg.period := by decide

theorem witness_DueAttemptEncodesSendsAndRecords :
    State.reset.cfg.period ≤ (timeReg 200 - State.reset.lastSend).toNat := by decide

theorem witness_FailureBelowThresholdIsCounted :
    { State.reset with failcnt := 5 }.isDue (timeReg 200) = true
      ∧ { State.reset with failcnt := 5 }.failcnt.toNat + 1 < State.reset.cfg.maxFail ∧ State.reset.cfg.maxFail ≤ 255 := by
  decide

theorem witness_ThresholdFailureRestartsAtOnce :
    { State.reset with failcnt := 6 }.isDue (timeReg 200) = true ∧ State.reset.cfg.maxFail ≤ 255
      ∧ { State.reset with failcnt := 6 }.failcnt.toNat + 1 = State.reset.cfg.maxFail
      ∧ { State.reset with failcnt := 5 }.failcnt.toNat + 1 < State.reset.cfg.maxFail := by decide

theorem witness_DueTestIsExactBelowTheWrap :
    { State.reset with lastSend := 0xFFFFFF9C#32 }.lastSend = timeReg 4294967196 ∧ 4294967196 ≤ 4294967396
      ∧ 4294967396 - 4294967196 < 2 ^ 32 := by decide

theorem witness_FirstTransmissionAfterReset :
    State.reset.out = [] ∧ State.reset.cfg.valid = true ∧ 7 ≤ 206 ∧ 206 - 7 < 2 ^ 32 ∧ 206 < 7 + State.reset.cfg.period
      ∧ 7 ≤ 207 ∧ 207 - 7 < 2 ^ 32 ∧ 7 + State.reset.cfg.period ≤ 207 := by decide

theorem witness_ZeroPeriodSendsEveryTick :
    { State.reset with cfg := { Config.reference with period := 0 } }.cfg.period = 0
      ∧ { State.reset with cfg := { Config.reference with period := 0 } }.out = [] := by decide

/-- For TickOutputsComeInOrder, OneHeartbeatPerHealthyTick and CommandCannotChangeItsOwnTicksFrame. -/
theorem witness_TickOutputsComeInOrder :
    State.reset.out = [] ∧ State.reset.sched ≠ .faulted
      ∧ (after (tick 200 (some 0x3209#16) false 200 State.reset)).isSome = true
      ∧ (after (tick 200 none false 200 State.reset)).isSome = true := by decide

theorem witness_RestartsForgetEverything :
    (framed 1 2 3).cfg = State.reset.cfg ∧ (framed 1 2 3).inputs = State.reset.inputs
      ∧ (framed 1 2 3).draws = State.reset.draws ∧ (framed 1 2 3).out = State.reset.out
      ∧ (framed 1 2 3).resetOut = State.reset.resetOut ∧ framed 1 2 3 ≠ State.reset := by decide

/-- The events admitted at the reset state: both at the limit. -/
theorem witness_DrawsAreExactlyTheAdmittedEvents :
    State.reset.wdtArmed = true ∧ State.reset.admits (.tick 1000 none true 1000)
      ∧ State.reset.admits (.wdtExpire 1000 1003) ∧ State.reset.admits (.reset 0) := by
  refine ⟨rfl, ?_, ?_, ?_⟩ <;> simp only [State.admits] <;> decide

/-- The invariant from its parts, each of them decidable. -/
theorem invariant_of (s : State) (h : s.cfg.valid = true ∧ s.frame.wf = true ∧ s.atTickBoundary = true
    ∧ s.wdtFedAt = s.time ∧ s.wdtLimit = BitVec.ofNat 32 s.cfg.wdtTimeout) : s.Inv :=
  ⟨h.1, h.2.1, h.2.2.1, h.2.2.2.1, h.2.2.2.2⟩

/-- A state in the middle of a run: fields set, six failures counted, at time 1200, with draws placed. -/
def midRun (ds : List EnvDraw) : State :=
  { framed 0xEE 0x91 0x7F with failcnt := 6, lastSend := 1200, time := 1200, wdtFedAt := 1200, inputs := ds }

/-- For EveryStepKeepsTheInvariant, NoRunEverStops, ConfigurationIsNeverWritten and
TransmittedFramesAreWellFormedAndFresh. -/
theorem witness_EveryStepKeepsTheInvariant :
    (midRun [tickDraw 200 none true]).Inv ∧ (after (step (midRun [tickDraw 200 none true]))).isSome = true :=
  ⟨invariant_of _ (by decide), by decide⟩

/-- Each clause at its boundary: above the limit, at it with both answers, below it. -/
theorem witness_WatchdogExpiryAtAStep :
    (midRun [tickDraw 1001 none true]).Inv ∧ (midRun [tickDraw 1001 none true]).nextDraw.powerOn = false
      ∧ Config.reference.wdtTimeout < (midRun [tickDraw 1001 none true]).nextDraw.gap
      ∧ (midRun [{ tickDraw 1000 none true with expireAtLimit := true }]).nextDraw.gap = Config.reference.wdtTimeout
      ∧ (midRun [tickDraw 1000 none true]).nextDraw.expireAtLimit = false
      ∧ (midRun [tickDraw 999 none true]).nextDraw.gap < Config.reference.wdtTimeout :=
  ⟨invariant_of _ (by decide), by decide⟩

theorem witness_CommandsThatWriteNothingLeaveOnlyARecord :
    decode 0x320A#16 = .instr (Settable.warn.command 10) ∧ Settable.warn.maxVal < 10
      ∧ decode 0x4000#16 = .unrecognized .reservedOp ∧ decode 0x1000#16 = .instr .help
      ∧ (State.reset.schedulerPhase (timeReg 200) true).sched ≠ .faulted
      ∧ ({ State.reset with failcnt := 6 }.schedulerPhase (timeReg 200) false).sched = .faulted
      ∧ (after (tick 200 (some 0x320A#16) true 200 State.reset)).isSome = true := by decide

theorem witness_StepRunsTheDecodedInstruction :
    let s := midRun [tickDraw 200 (some 0x3209#16) true]
    s.Inv ∧ s.cfg.consoleEn = true ∧ decode 0x3209#16 = .instr (.setWarn 9) ∧ s.nextDraw.powerOn = false
      ∧ s.nextDraw.cmd = some 0x3209#16 ∧ s.nextDraw.gap < s.cfg.wdtTimeout
      ∧ (s.presented.schedulerPhase (timeReg (s.time + s.nextDraw.gap)) s.nextDraw.txOk).sched ≠ .faulted
      ∧ s.isDue (timeReg s.time) = false ∧ decode (BitVec.ofNat 16 0x3209) = .instr (.setWarn 9) :=
  ⟨invariant_of _ (by decide), by decide⟩

/-- A state no run reaches, and a power-on reset in it. -/
theorem witness_PowerOnResetWorksFromEveryState :
    let s := { State.reset with failcnt := 9, inputs := [{ tickDraw 5 none true with powerOn := true }] }
    s.cfg.valid = true ∧ s.nextDraw.powerOn = true ∧ s.atTickBoundary = false := by decide

/-- The seventh failure after six; and two failures of two. -/
theorem witness_OneRestartPerFaultEpisode :
    let d := tickDraw 200 none false
    let e := tickDraw 999 none false
    let s := { State.reset with cfg := { Config.reference with maxFail := 2 }, inputs := [d, e] }
    ((midRun [d]).Inv ∧ (midRun [d]).lastSend = timeReg (midRun [d]).time ∧ (midRun [d]).inputs = [d] ++ []
      ∧ [d].length + (midRun [d]).failcnt.toNat = (midRun [d]).cfg.maxFail
      ∧ ∀ x ∈ [d], x.powerOn = false ∧ x.txOk = false ∧ (midRun [d]).cfg.period ≤ x.gap
          ∧ x.gap < (midRun [d]).cfg.wdtTimeout)
    ∧ s.Inv ∧ s.lastSend = timeReg s.time ∧ s.inputs = [d, e] ++ [] ∧ [d, e].length + s.failcnt.toNat = s.cfg.maxFail
      ∧ ∀ x ∈ [d, e], x.powerOn = false ∧ x.txOk = false ∧ s.cfg.period ≤ x.gap ∧ x.gap < s.cfg.wdtTimeout :=
  ⟨⟨invariant_of _ (by decide), by decide⟩, invariant_of _ (by decide), by decide⟩

theorem witness_SuccessResetsTheFailureCount :
    let d := tickDraw 200 none true
    let ds := [tickDraw 200 none false, tickDraw 999 none false]
    let s := midRun (d :: ds)
    s.Inv ∧ s.inputs = d :: ds ++ [] ∧ d.powerOn = false ∧ d.txOk = true ∧ s.isDue (timeReg (s.time + d.gap)) = true
      ∧ d.gap < s.cfg.wdtTimeout ∧ ds.length < s.cfg.maxFail
      ∧ ∀ e ∈ ds, e.powerOn = false ∧ e.gap < s.cfg.wdtTimeout :=
  ⟨invariant_of _ (by decide), by decide⟩

theorem witness_NextAttemptComesOnePeriodLater :
    let quiet := [tickDraw 150 none false, tickDraw 49 none false]
    let d := tickDraw 1 none true
    let s := midRun (quiet ++ [d])
    s.Inv ∧ s.lastSend = timeReg s.time ∧ s.inputs = quiet ++ d :: [] ∧ s.cfg.period + s.cfg.wdtTimeout ≤ 2 ^ 32
      ∧ (∀ e ∈ quiet ++ [d], e.powerOn = false ∧ e.gap < s.cfg.wdtTimeout)
      ∧ (quiet.map EnvDraw.gap).sum < s.cfg.period ∧ s.cfg.period ≤ (quiet.map EnvDraw.gap).sum + d.gap :=
  ⟨invariant_of _ (by decide), by decide⟩

/-- For DeployedBuildSendsOnlyTheCounter and DeployedBuildIgnoresTheCommandPort. -/
theorem witness_DeployedBuildSendsOnlyTheCounter :
    let s := { State.reset with
      cfg := { Config.reference with consoleEn := false }, inputs := [tickDraw 200 (some 0x3209#16) true] }
    s.Inv ∧ s.cfg.consoleEn = false ∧ s.memRead 1 &&& 0xF0#8 = 0 ∧ (∀ a : FrameAddr, 2 ≤ a.val → s.memRead a = 0)
      ∧ (after (step s)).isSome = true :=
  ⟨invariant_of _ (by decide), by decide⟩

theorem witness_StepRefusesInvalidConfigurationsAndUnreachableStates :
    { State.reset with cfg := { Config.reference with maxFail := 0 } }.cfg.valid = false
      ∧ { State.reset with failcnt := 7, inputs := [tickDraw 0 none true] }.atTickBoundary = false
      ∧ { State.reset with failcnt := 7, inputs := [tickDraw 0 none true] }.nextDraw.powerOn = false
      ∧ State.reset.cfg.valid = true := by decide

theorem witness_CanonicalMemoryIsDeterminedByItsReads :
    Memory.wf [(1, 0x90#8)] = true ∧ Memory.wf (Memory.write [] 1 0x90#8) = true
      ∧ ∀ a : FrameAddr, Memory.read [(1, 0x90#8)] a.val = Memory.read (Memory.write [] 1 0x90#8) a.val := by decide

end Sys2Proof.Tests
end

section
/-! SUPPORT. The frame model, 41_frame_model.md: what `GETF` reads after `PUTF` and `SETF`, which bits they leave, the
words of the set commands, and the getters as read ports. -/

namespace Sys2Proof

/-! ### The fields and the bits of a layout -/

/-- The checksum is not settable (41_frame_model.md rule R81). -/
theorem Settable.chk_ne_field (f : Settable) : Field.chk ≠ f.field := by cases f <;> decide

theorem Field.lowMask_toNat_lt (f : Field) : f.lowMask.toNat < 2 ^ f.width := by cases f <;> decide

theorem Layout.getLsbD_foldl_masks (L : Layout) (a : FrameAddr) (i : Nat) (l : List Field) (acc : Byte) :
    (l.foldl (fun acc f => if L.byteOf f = a then acc ||| L.mask f else acc) acc).getLsbD i
      = (acc.getLsbD i || l.any fun f => decide (L.byteOf f = a) && (L.mask f).getLsbD i) := by
  induction l generalizing acc with
  | nil => simp
  | cons f l ih =>
    rw [List.foldl_cons, ih, List.any_cons]
    by_cases h : L.byteOf f = a <;> simp [h, Bool.or_assoc]

/-- A bit is used exactly where some field of the byte has it in its mask. -/
theorem Layout.getLsbD_usedBits (L : Layout) (a : FrameAddr) (i : Nat) :
    (L.usedBits a).getLsbD i = true ↔ ∃ f, L.byteOf f = a ∧ (L.mask f).getLsbD i = true := by
  rw [Layout.usedBits, Layout.getLsbD_foldl_masks]
  simp [Machine.mem_allFields]

/-- No reserved bit lies in a field's mask (10_state.md rule R14). -/
theorem Layout.reservedBits_and_mask (L : Layout) (f : Field) : L.reservedBits (L.byteOf f) &&& L.mask f = 0 := by
  apply BitVec.eq_of_getLsbD_eq
  intro i hi
  rw [BitVec.getLsbD_and, Layout.reservedBits, BitVec.getLsbD_not]
  cases hm : (L.mask f).getLsbD i with
  | false => simp
  | true =>
    have hu := (L.getLsbD_usedBits (L.byteOf f) i).mpr ⟨f, rfl, hm⟩
    simp [hu]

end Sys2Proof

namespace Sys2Proof.Machine

/-! ### `PUTF`: a read-modify-write of one byte -/

theorem State.memRead_putF_same (s : State) (f : Settable) (v : Nat) :
    (s.putF f v).memRead (s.cfg.layout.byteOf f.field)
      = (s.memRead (s.cfg.layout.byteOf f.field) &&& ~~~ s.cfg.layout.mask f.field)
        ||| ((BitVec.ofNat 8 v <<< s.cfg.layout.shiftOf f.field) &&& s.cfg.layout.mask f.field) := by
  rw [State.putF_eq, State.memRead_memWrite_same]

theorem State.memRead_putF_other (s : State) (f : Settable) (v : Nat) {a : FrameAddr}
    (h : a ≠ s.cfg.layout.byteOf f.field) : (s.putF f v).memRead a = s.memRead a :=
  s.memRead_memWrite_other _ _ _ h

/-- In the field's byte, bits apart from the field's mask stand. -/
theorem State.memRead_putF_outside (s : State) (f : Settable) (v : Nat) {b : Byte}
    (h : b &&& s.cfg.layout.mask f.field = 0) :
    (s.putF f v).memRead (s.cfg.layout.byteOf f.field) &&& b = s.memRead (s.cfg.layout.byteOf f.field) &&& b := by
  rw [State.memRead_putF_same, Layout.insert_outside _ _ _ _ _ h]

theorem State.putF_eq_frame (s : State) (f : Settable) (v : Nat) :
    s.putF f v = { s with frame := (s.putF f v).frame } := rfl

/-- `GETF` of the field written: the low bits of the value. -/
theorem State.getF_putF_same (s : State) (f : Settable) (v : Nat) (hL : s.cfg.layout.wellFormed = true) :
    (s.putF f v).getF f.field = BitVec.ofNat 8 v &&& f.field.lowMask := by
  rw [State.getF, State.putF_cfg, State.memRead_putF_same]
  exact Layout.extract_insert _ _ _ _ (Layout.fits_of_wellFormed hL f).2

/-- `GETF` of any other field is as before. -/
theorem State.getF_putF_other (s : State) (f : Settable) (v : Nat) (hL : s.cfg.layout.wellFormed = true) {g : Field}
    (hg : g ≠ f.field) : (s.putF f v).getF g = s.getF g := by
  rw [State.getF, State.putF_cfg, State.getF]
  by_cases hb : s.cfg.layout.byteOf g = s.cfg.layout.byteOf f.field
  · rw [hb, State.memRead_putF_same]
    exact Layout.extract_insert_other _ _ _ _ _ (Layout.apart_of_wellFormed hL hg.symm hb.symm)
  · rw [State.memRead_putF_other _ _ _ hb]

theorem State.memRead_putF_reserved (s : State) (f : Settable) (v : Nat) (a : FrameAddr) :
    (s.putF f v).memRead a &&& s.cfg.layout.reservedBits a = s.memRead a &&& s.cfg.layout.reservedBits a := by
  by_cases ha : a = s.cfg.layout.byteOf f.field
  · subst ha
    exact s.memRead_putF_outside f v (Layout.reservedBits_and_mask _ _)
  · rw [State.memRead_putF_other _ _ _ ha]

/-! ### What changes at most the bits of one field -/

theorem OnlyFieldBits.refl (s : State) (f : Settable) : OnlyFieldBits s s f :=
  ⟨fun _ _ => rfl, rfl, fun _ _ => rfl, fun _ => rfl⟩

theorem OnlyFieldBits.putF (s : State) (f : Settable) (v : Nat) (hL : s.cfg.layout.wellFormed = true) :
    OnlyFieldBits s (s.putF f v) f :=
  ⟨fun _ ha => s.memRead_putF_other f v ha, s.memRead_putF_outside f v (by simp),
    fun _ hg => s.getF_putF_other f v hL hg, s.memRead_putF_reserved f v⟩

/-- A console record is no part of the frame. -/
theorem OnlyFieldBits.emitCon {s t : State} {f : Settable} (h : OnlyFieldBits s t f) (r : Record) :
    OnlyFieldBits s (t.emitCon r) f := h

/-- A setter changes at most its field's bits, accepted or rejected. -/
theorem OnlyFieldBits.setF (s : State) (f : Settable) (v : Nat) (hL : s.cfg.layout.wellFormed = true) :
    OnlyFieldBits s (s.setF f v) f := by
  rcases Nat.lt_or_ge f.maxVal v with hv | hv
  · rw [State.setF_rejected s f v hv]
    exact (OnlyFieldBits.refl s f).emitCon _
  · rw [State.setF_accepted s f v hv]
    exact (OnlyFieldBits.putF s f v hL).emitCon _

theorem OnlyFieldBits.getF_other {s t : State} {f : Settable} (h : OnlyFieldBits s t f) {g : Field}
    (hg : g ≠ f.field) : t.getF g = s.getF g := by
  obtain ⟨-, -, hget, -⟩ := h
  exact hget g hg

/-! ### `SETF` -/

/-- An accepted value is read back. -/
theorem State.getF_setF_accepted (s : State) (f : Settable) (v : Nat) (hL : s.cfg.layout.wellFormed = true)
    (hv : v ≤ f.maxVal) : (s.setF f v).getF f.field = BitVec.ofNat 8 v := by
  rw [State.setF_accepted s f v hv, State.getF_emitCon, State.getF_putF_same s f v hL, Settable.and_lowMask f v hv]

/-- A rejected value changes no field. -/
theorem State.getF_setF_rejected (s : State) (f : Settable) (v : Nat) (hv : f.maxVal < v) (g : Field) :
    (s.setF f v).getF g = s.getF g := by
  rw [State.setF_rejected s f v hv, State.getF_emitCon]

/-- Whatever the operand, a setter brings no field out of its domain. -/
theorem State.getF_setF_le (s : State) (f : Settable) (v : Nat) (hL : s.cfg.layout.wellFormed = true)
    (h : (s.getF f.field).toNat ≤ f.maxVal) : ((s.setF f v).getF f.field).toNat ≤ f.maxVal := by
  rcases Nat.lt_or_ge f.maxVal v with hv | hv
  · rwa [State.getF_setF_rejected s f v hv]
  · rw [State.getF_setF_accepted s f v hL hv, BitVec.toNat_ofNat]
    exact (Nat.mod_le _ _).trans hv

/-- The byte an accepted setter leaves, on a layout known by name. -/
theorem State.memRead_setF_of_layout {s : State} {L : Layout} (f : Settable) {v : Nat} {old new : Byte}
    (hL : s.cfg.layout = L) (hold : s.memRead (L.byteOf f.field) = old) (hv : v ≤ f.maxVal)
    (hnew : (old &&& ~~~ L.mask f.field) ||| ((BitVec.ofNat 8 v <<< L.shiftOf f.field) &&& L.mask f.field) = new) :
    (s.setF f v).memRead (L.byteOf f.field) = new := by
  subst hL hold hnew
  rw [State.setF_accepted s f v hv, State.memRead_emitCon, State.memRead_putF_same]

theorem State.out_setF_accepted (s : State) (f : Settable) (v : Nat) (hv : v ≤ f.maxVal) :
    (s.setF f v).out = s.out ++ [.con (.setOk f v)] := by
  rw [State.setF_accepted s f v hv, State.emitCon_out, State.putF_out]

theorem State.out_setF_rejected (s : State) (f : Settable) (v : Nat) (hv : f.maxVal < v) :
    (s.setF f v).out = s.out ++ [.con (.setRejected f v)] := by
  rw [State.setF_rejected s f v hv, State.emitCon_out]

@[simp] theorem State.setF_cfg (s : State) (f : Settable) (v : Nat) : (s.setF f v).cfg = s.cfg := by
  rcases s.setF_cases f v with ⟨-, h⟩ | ⟨-, h⟩ <;> rw [h]

/-- Without a console no command is served (45_console.md rule R142). -/
theorem consolePhase_of_no_console (s : State) (h : s.cfg.consoleEn = false) (cmd : Option CmdWord) :
    consolePhase cmd s = .next s := by
  rcases consolePhase_cases cmd s with hc | ⟨hen, -⟩
  · exact hc
  · exact absurd (h.symm.trans hen) Bool.false_ne_true

/-! ### The set commands: their words and their effect -/

theorem exec_command (f : Settable) (v : Nat) (s : State) : exec (f.command v) s = .next (s.setF f v) := by
  cases f <;> rfl

theorem goesTo_exec_command (f : Settable) {v : Nat} {s : State} {P : State → Prop} (h : P (s.setF f v)) :
    GoesTo (exec (f.command v) s) P :=
  ⟨_, exec_command f v s, h⟩

/-- The three fields of a `SET` word, bit by bit (30_encoding.md rule R49). -/
theorem getLsbD_setWord (fsel : BitVec 4) (v i : Nat) :
    (setWord fsel v).getLsbD i
      = if i < 8 then (BitVec.ofNat 8 v).getLsbD i
        else if i < 12 then fsel.getLsbD (i - 8) else (3#4).getLsbD (i - 12) := by
  have happend : (setWord fsel v).getLsbD i = ((3#4 ++ fsel) ++ BitVec.ofNat 8 v).getLsbD i := rfl
  rw [happend, BitVec.getLsbD_append, BitVec.getLsbD_append]
  by_cases h8 : i < 8
  · simp only [if_pos h8]
  · have h12 : i - 8 < 4 ↔ i < 12 := by omega
    have hsub : i - 8 - 4 = i - 12 := by omega
    simp only [if_neg h8, h12, hsub]

theorem opOf_setWord (fsel : BitVec 4) (v : Nat) : opOf (setWord fsel v) = 3#4 := by
  apply BitVec.eq_of_getLsbD_eq
  intro i hi
  rw [opOf, BitVec.getLsbD_extractLsb', getLsbD_setWord, if_neg (by omega), if_neg (by omega), Nat.add_sub_cancel_left,
    decide_eq_true hi, Bool.true_and]

theorem fselOf_setWord (fsel : BitVec 4) (v : Nat) : fselOf (setWord fsel v) = fsel := by
  apply BitVec.eq_of_getLsbD_eq
  intro i hi
  rw [fselOf, BitVec.getLsbD_extractLsb', getLsbD_setWord, if_neg (by omega), if_pos (by omega),
    Nat.add_sub_cancel_left, decide_eq_true hi, Bool.true_and]

theorem valOf_setWord (fsel : BitVec 4) (v : Nat) : valOf (setWord fsel v) = BitVec.ofNat 8 v := by
  apply BitVec.eq_of_getLsbD_eq
  intro i hi
  rw [valOf, BitVec.getLsbD_extractLsb', getLsbD_setWord, if_pos (by omega), Nat.zero_add, decide_eq_true hi,
    Bool.true_and]

theorem operandOf_setWord (fsel : BitVec 4) {v : Nat} (hv : v ≤ 255) : operandOf (setWord fsel v) = v := by
  rw [operandOf, valOf_setWord, BitVec.toNat_ofNat]
  exact Nat.mod_eq_of_lt (by omega)

/-- The word whose `FSEL` is a settable field's number decodes to that field's command (30_encoding.md rule R50). -/
theorem decode_setWord (f : Settable) {v : Nat} (hv : v ≤ 255) :
    decode (setWord (BitVec.ofNat 4 f.field.number) v) = .instr (f.command v) := by
  cases f <;> simp [decode, opOf_setWord, decodeSet, fselOf_setWord, operandOf_setWord _ hv, Settable.field,
    Field.number, Settable.command]

/-- The operand stands in the low byte of the word (30_encoding.md rule R51). -/
theorem setWord_or_operand (fsel : BitVec 4) {v : Nat} (hv : v ≤ 255) :
    setWord fsel 0 ||| BitVec.ofNat 16 v = setWord fsel v := by
  apply BitVec.eq_of_getLsbD_eq
  intro i hi
  have hoperand : (BitVec.ofNat 16 v).getLsbD i = v.testBit i := by
    rw [BitVec.getLsbD_ofNat, decide_eq_true hi, Bool.true_and]
  rw [BitVec.getLsbD_or, getLsbD_setWord, getLsbD_setWord, hoperand]
  by_cases h8 : i < 8
  · rw [if_pos h8, if_pos h8, BitVec.getLsbD_ofNat, BitVec.getLsbD_ofNat, Nat.zero_testBit, Bool.and_false,
      Bool.false_or, decide_eq_true h8, Bool.true_and]
  · have hhigh : v.testBit i = false :=
      Nat.testBit_lt_two_pow ((by omega : v < 2 ^ 8).trans_le (Nat.pow_le_pow_right (by decide) (by omega)))
    rw [if_neg h8, if_neg h8, hhigh, Bool.or_false]

/-- Every set command is the range-checked setter of its field (41_frame_model.md section 2). -/
theorem setCommand_command (f : Settable) (s : State) (v : Nat) (hL : s.cfg.layout.wellFormed = true) :
    SetCommand f.command (setWord (BitVec.ofNat 4 f.field.number) 0) f f.maxVal s v := by
  refine ⟨fun hv => ?_, fun hv => goesTo_exec_command f ⟨?_, ?_, ?_⟩, fun hv => ?_⟩
  · rw [setWord_or_operand _ hv, decode_setWord f hv]
  · rw [State.setF_accepted s f v hv]
    rfl
  · exact s.getF_setF_accepted f v hL hv
  · exact OnlyFieldBits.setF s f v hL
  · rw [exec_command, State.setF_rejected s f v hv]
    rfl

/-! ### The getters -/

theorem State.getF_toNat_lt (s : State) (f : Field) : (s.getF f).toNat < 2 ^ f.width := by
  rw [State.getF, BitVec.toNat_and]
  exact Nat.and_lt_two_pow _ f.lowMask_toNat_lt

/-- A port as wide as its field shows it whole. -/
theorem State.setWidth_getF (s : State) (f : Field) : ((s.getF f).setWidth f.width).setWidth 8 = s.getF f := by
  apply BitVec.eq_of_toNat_eq
  rw [BitVec.toNat_setWidth, BitVec.toNat_setWidth, Nat.mod_eq_of_lt (s.getF_toNat_lt f)]
  exact Nat.mod_eq_of_lt (s.getF f).isLt

/-- `GETF` on a layout known by name. -/
theorem State.getF_of_layout {s : State} {L : Layout} (hL : s.cfg.layout = L) (f : Field) :
    s.getF f = (s.memRead (L.byteOf f) >>> L.shiftOf f) &&& f.lowMask := by
  rw [State.getF, hL]

/-- No layout moves the counter (10_state.md rule R11). -/
theorem State.getF_ctr (s : State) : s.getF .ctr = s.memRead 1 &&& 0x0F#8 := by
  rw [State.getF, Layout.byteOf_ctr, Layout.shiftOf_ctr, BitVec.ushiftRight_zero]
  rfl

/-- No layout moves the checksum, which is the whole of byte 0. -/
theorem State.getF_chk (s : State) : s.getF .chk = s.memRead 0 := by
  have hmask : Field.lowMask .chk = BitVec.allOnes 8 := by decide
  rw [State.getF, hmask, BitVec.and_allOnes]
  exact BitVec.ushiftRight_zero _

theorem State.getCtr_eq (s : State) : s.getCtr = (s.memRead 1 &&& 0x0F#8).setWidth 4 :=
  congrArg (BitVec.setWidth 4) s.getF_ctr

theorem State.getChk_eq (s : State) : s.getChk = s.memRead 0 := s.getF_chk

theorem State.getWarn_le_of_atTickBoundary {s : State} (h : s.atTickBoundary = true) : s.getWarn.toNat ≤ 9 := by
  obtain ⟨hdom, -⟩ := s.atTickBoundary_iff.mp h
  rw [State.getWarn, BitVec.toNat_setWidth]
  exact (Nat.mod_le _ _).trans (s.fieldsInDomain_iff.mp hdom .warn)

end Sys2Proof.Machine
end

section
/-! SUPPORT. The statements of 41_frame_model.md settled. -/

namespace Sys2Proof.Machine

/-- Settles O12: the byte written is the field's, and the mask shields every other bit of it. -/
theorem putfWritesOnlyItsMask : Obligations.PutfWritesOnlyItsMask := by
  intro s f v _
  exact ⟨s.memRead_putF_same f v, s.memRead_putF_outside f v (by simp), fun _ ha => s.memRead_putF_other f v ha,
    s.putF_eq_frame f v⟩

/-- Settles O13: by the two branches of `SETF`; either way at most the field's bits change, and `CHK` is no settable
field. -/
theorem setfIsRangeChecked : Obligations.SetfIsRangeChecked := by
  intro s f v
  refine ⟨fun hv => ?accepted, fun hv => ?rejected, fun hL => ?frame, consolePhase_of_no_console s⟩
  case accepted =>
    rw [State.setF_accepted s f v hv]
    rfl
  case rejected =>
    rw [State.setF_rejected s f v hv]
    rfl
  case frame =>
    have honly := OnlyFieldBits.setF s f v hL
    exact ⟨honly.getF_other f.chk_ne_field, honly⟩

/-- Settles O16: a field's value fits a port of its width, and on the default layout `GETF` is the rule's formula. -/
theorem gettersReadTheirBits : Obligations.GettersReadTheirBits := by
  refine ⟨fun s => ?whole, fun s => ?fixed, fun s hs => State.getWarn_le_of_atTickBoundary hs, fun s hL => ?placed⟩
  case whole =>
    exact ⟨s.setWidth_getF .ctr, s.setWidth_getF .warn, s.setWidth_getF .prefill, s.setWidth_getF .decel,
      s.setWidth_getF .decelNv, s.setWidth_getF .drvbrk⟩
  case fixed =>
    exact ⟨s.getCtr_eq, s.getChk_eq⟩
  case placed =>
    have hwarn : s.getWarn = ((s.memRead 1 >>> 4) &&& 0x0F#8).setWidth 4 :=
      congrArg (BitVec.setWidth 4) (State.getF_of_layout hL .warn)
    have hprefill : s.getPrefill = (s.memRead 2 &&& 0x01#8).setWidth 1 :=
      congrArg (BitVec.setWidth 1) (State.getF_of_layout hL .prefill)
    have hdecel : s.getDecel = ((s.memRead 2 >>> 1) &&& 0x0F#8).setWidth 4 :=
      congrArg (BitVec.setWidth 4) (State.getF_of_layout hL .decel)
    have hdecelNv : s.getDecelNv = ((s.memRead 2 >>> 5) &&& 0x01#8).setWidth 1 :=
      congrArg (BitVec.setWidth 1) (State.getF_of_layout hL .decelNv)
    have hdrvbrk : s.getDrvbrk = ((s.memRead 2 >>> 6) &&& 0x01#8).setWidth 1 :=
      congrArg (BitVec.setWidth 1) (State.getF_of_layout hL .drvbrk)
    refine ⟨hwarn, hprefill, hdecel, hdecelNv, hdrvbrk, fun h => ?_, fun h => ?_, fun h => ?_⟩
    · rw [s.getCtr_eq, hwarn, h]
      decide
    · rw [hprefill, hdecel, h]
      decide
    · rw [hdecelNv, hdrvbrk, h]
      decide

/-- Settles O8: each of the five commands is `SETF` of its field; the examples follow one byte through accepted
setters. -/
theorem setCommandsOfPlacedFields : Obligations.SetCommandsOfPlacedFields := by
  refine ⟨fun s v hL => ?commands, fun s v hL h => ?warnBound, fun s hL => ?examples⟩
  case commands =>
    exact ⟨setCommand_command .warn s v hL, setCommand_command .prefill s v hL, setCommand_command .decel s v hL,
      setCommand_command .decelNv s v hL, setCommand_command .drvbrk s v hL⟩
  case warnBound =>
    exact goesTo_exec_command .warn (s.getF_setF_le .warn v hL h)
  case examples =>
    refine ⟨fun h => ?warn, fun h => ?prefill, fun h => ?decel, fun h => ?decelNv, fun h => ?drvbrk⟩
    case warn =>
      have hset : (s.setF .warn 9).memRead 1 = 0x93#8 := State.memRead_setF_of_layout .warn hL h (by decide) (by decide)
      refine goesTo_exec_command .warn ⟨hset, s.out_setF_accepted .warn 9 (by decide),
        goesTo_exec_command .warn ⟨?_, ?_⟩⟩
      · rw [State.setF_rejected _ .warn 10 (by decide), State.memRead_emitCon, hset]
      · exact State.out_setF_rejected _ .warn 10 (by decide)
    case prefill =>
      exact goesTo_exec_command .prefill (State.memRead_setF_of_layout .prefill hL h (by decide) (by decide))
    case decel =>
      exact goesTo_exec_command .decel (State.memRead_setF_of_layout .decel hL h (by decide) (by decide))
    case decelNv =>
      exact goesTo_exec_command .decelNv (State.memRead_setF_of_layout .decelNv hL h (by decide) (by decide))
    case drvbrk =>
      have hset : (s.setF .drvbrk 1).memRead 2 = 0x7F#8 :=
        State.memRead_setF_of_layout .drvbrk hL h (by decide) (by decide)
      have hL' : (s.setF .drvbrk 1).cfg.layout = Layout.default := by rw [State.setF_cfg, hL]
      exact goesTo_exec_command .drvbrk ⟨hset, goesTo_exec_command .drvbrk
        (State.memRead_setF_of_layout .drvbrk hL' hset (by decide) (by decide))⟩

end Sys2Proof.Machine
end

section
/-! SUPPORT. FrameCodec, 42_frame_codec.md: the bytes that the counter step, the checksum step and ENCODE leave, and
the attempt's advance. -/

namespace Sys2Proof.Machine

/-! ### The low nibble of a byte and its successor -/

theorem toNat_and_lowNibble (b : Byte) : (b &&& 0x0F#8).toNat = b.toNat % 16 := by
  rw [BitVec.toNat_and]
  exact Nat.and_two_pow_sub_one_eq_mod b.toNat 4

/-- Adding one to a byte advances its low nibble modulo 16. -/
theorem toNat_add_one_and_lowNibble (b : Byte) :
    ((b + 1) &&& 0x0F#8).toNat = ((b &&& 0x0F#8).toNat + 1) % 16 := by
  rw [toNat_and_lowNibble, toNat_and_lowNibble]
  bv_omega

/-- The counter computed as a number is the low nibble of the byte plus one. -/
theorem ofNat_lowNibble_succ (b : Byte) :
    BitVec.ofNat 8 (((b &&& 0x0F#8).toNat + 1) % 16) = (b + 1) &&& 0x0F#8 := by
  rw [← toNat_add_one_and_lowNibble, BitVec.ofNat_toNat, BitVec.setWidth_eq]

/-! ### `CTR_ADV` -/

/-- Byte 1 after `CTR_ADV`, in the equivalent form of 42_frame_codec.md rule R91. -/
theorem State.memRead_ctrAdv_one (s : State) :
    s.ctrAdv.memRead 1 = (s.memRead 1 &&& 0xF0#8) ||| ((s.memRead 1 + 1) &&& 0x0F#8) := by
  have hput := s.memRead_putF_same .ctr (((s.getF .ctr).toNat + 1) % 16)
  rw [Settable.field, Layout.byteOf_ctr, Layout.shiftOf_ctr, Layout.mask_ctr, s.getF_ctr, ofNat_lowNibble_succ,
    BitVec.shiftLeft_zero, BitVec.and_assoc, BitVec.and_self] at hput
  rw [State.ctrAdv, s.getF_ctr]
  exact hput

theorem State.memRead_ctrAdv_other (s : State) {a : FrameAddr} (ha : a ≠ 1) : s.ctrAdv.memRead a = s.memRead a :=
  s.memRead_putF_other .ctr _ ha

/-- The counter advances modulo 16, whatever the layout: none moves it. -/
theorem State.toNat_getF_ctrAdv (s : State) : (s.ctrAdv.getF .ctr).toNat = ((s.getF .ctr).toNat + 1) % 16 := by
  have hlow : s.ctrAdv.getF .ctr = (s.memRead 1 + 1) &&& 0x0F#8 := by
    rw [State.getF_ctr, State.memRead_ctrAdv_one, BitVec.and_or_distrib_right, BitVec.and_assoc, BitVec.and_assoc,
      BitVec.and_self]
    simp
  rw [hlow, s.getF_ctr, toNat_add_one_and_lowNibble]

theorem State.ctrAdv_eq_frame (s : State) : s.ctrAdv = { s with frame := s.ctrAdv.frame } := s.putF_eq_frame .ctr _

/-- The counter step reads the frame alone. -/
theorem State.memRead_ctrAdv_congr {s t : State} (h : ∀ a : FrameAddr, s.memRead a = t.memRead a) (a : FrameAddr) :
    s.ctrAdv.memRead a = t.ctrAdv.memRead a := by
  by_cases ha : a = 1
  · rw [ha, State.memRead_ctrAdv_one, State.memRead_ctrAdv_one, h]
  · rw [State.memRead_ctrAdv_other s ha, State.memRead_ctrAdv_other t ha, h]

/-! ### `XORSUM` -/

theorem State.memRead_xorsum_zero (s : State) : s.xorsum.memRead 0 = s.xorOfBytes := s.memRead_memWrite_same 0 _

theorem State.memRead_xorsum_other (s : State) {a : FrameAddr} (ha : a ≠ 0) : s.xorsum.memRead a = s.memRead a :=
  s.memRead_memWrite_other 0 a _ ha

theorem State.xorsum_eq_frame (s : State) : s.xorsum = { s with frame := s.xorsum.frame } := rfl

/-- The checksum step reads the frame alone. -/
theorem State.memRead_xorsum_congr {s t : State} (h : ∀ a : FrameAddr, s.memRead a = t.memRead a) (a : FrameAddr) :
    s.xorsum.memRead a = t.xorsum.memRead a := by
  by_cases ha : a = 0
  · rw [ha, State.memRead_xorsum_zero, State.memRead_xorsum_zero, State.xorOfBytes_congr h]
  · rw [State.memRead_xorsum_other s ha, State.memRead_xorsum_other t ha, h]

/-- XOR of two bits is their sum modulo 2. -/
theorem toNat_xor_eq_add_mod_two (a b : Bool) : (a ^^ b).toNat = (a.toNat + b.toNat) % 2 := by
  cases a <;> cases b <;> rfl

/-- Each bit of the checksum is the parity of that bit of the seven bytes (42_frame_codec.md rule R92). -/
theorem State.toNat_getLsbD_xorOfBytes (s : State) (k : Nat) :
    (s.xorOfBytes.getLsbD k).toNat
      = (((s.memRead 1).getLsbD k).toNat + ((s.memRead 2).getLsbD k).toNat + ((s.memRead 3).getLsbD k).toNat
        + ((s.memRead 4).getLsbD k).toNat + ((s.memRead 5).getLsbD k).toNat + ((s.memRead 6).getLsbD k).toNat
        + ((s.memRead 7).getLsbD k).toNat) % 2 := by
  simp only [State.xorOfBytes, BitVec.getLsbD_xor, toNat_xor_eq_add_mod_two, Nat.mod_add_mod]

/-! ### `ENCODE` -/

theorem State.encodeFrame_eq (s : State) : s.encodeFrame = s.ctrAdv.xorsum := rfl

theorem State.encodeFrame_eq_frame (s : State) : s.encodeFrame = { s with frame := s.encodeFrame.frame } := rfl

/-- The checksum step leaves the byte of the counter. -/
theorem State.memRead_encodeFrame_one (s : State) : s.encodeFrame.memRead 1 = s.ctrAdv.memRead 1 :=
  s.ctrAdv.memRead_xorsum_other (by decide)

theorem State.memRead_encodeFrame_other (s : State) {a : FrameAddr} (h0 : a ≠ 0) (h1 : a ≠ 1) :
    s.encodeFrame.memRead a = s.memRead a := by
  rw [State.encodeFrame_eq, State.memRead_xorsum_other _ h0, State.memRead_ctrAdv_other _ h1]

/-- The checksum of ENCODE covers the counter's new value (42_frame_codec.md rule R90). -/
theorem State.memRead_encodeFrame_zero (s : State) :
    s.encodeFrame.memRead 0 = s.encodeFrame.memRead 1 ^^^ s.memRead 2 ^^^ s.memRead 3 ^^^ s.memRead 4 ^^^ s.memRead 5
      ^^^ s.memRead 6 ^^^ s.memRead 7 := by
  rw [State.memRead_encodeFrame_one, State.encodeFrame_eq, State.memRead_xorsum_zero, State.xorOfBytes]
  simp [State.memRead_ctrAdv_other]

/-- ENCODE reads the frame alone: each of its two steps does. -/
theorem State.memRead_encodeFrame_congr {s t : State} (h : ∀ a : FrameAddr, s.memRead a = t.memRead a)
    (a : FrameAddr) : s.encodeFrame.memRead a = t.encodeFrame.memRead a :=
  State.memRead_xorsum_congr (State.memRead_ctrAdv_congr h) a

/-- A due phase (a) leaves the encoded frame, sent or not (43_scheduler.md rule R104). -/
theorem State.memRead_schedulerPhase_of_due (s : State) {now : TimeReg} (ok : Bool) (hdue : s.isDue now = true)
    (a : FrameAddr) : (s.schedulerPhase now ok).memRead a = s.encodeFrame.memRead a := by
  rcases s.schedulerPhase_cases now ok with ⟨hquiet, -⟩ | ⟨-, -, hsent⟩ | ⟨-, -, hfailed⟩
  · exact absurd (hquiet.symm.trans hdue) Bool.false_ne_true
  · rw [hsent]
    rfl
  · rw [hfailed]
    rfl

end Sys2Proof.Machine
end

section
/-! SUPPORT. The statements of 42_frame_codec.md on `CTR_ADV`, `XORSUM` and ENCODE settled. -/

namespace Sys2Proof.Machine

/-- Settles O18: the byte `PUTF` writes to the counter, and an attempt that keeps ENCODE's frame for either answer of
the transport. -/
theorem ctrAdvIncrementsModuloSixteen : Obligations.CtrAdvIncrementsModuloSixteen := by
  refine ⟨fun s => ?step, fun s h => ?specExample, fun s now ok hdue => ?attempt⟩
  case step =>
    exact ⟨s.memRead_ctrAdv_one, s.toNat_getF_ctrAdv, fun _ ha => s.memRead_ctrAdv_other ha, s.ctrAdv_eq_frame⟩
  case specExample =>
    rw [s.memRead_ctrAdv_one, h]
    decide
  case attempt =>
    rw [s.memRead_schedulerPhase_of_due ok hdue, s.memRead_encodeFrame_one]

/-- Settles O19: the byte written is the XOR of the seven others, and XOR of bits is their sum modulo 2. -/
theorem xorsumStoresTheXorOfBytesOneToSeven : Obligations.XorsumStoresTheXorOfBytesOneToSeven := by
  refine ⟨fun s => ⟨s.memRead_xorsum_zero, fun k => ?parity, fun _ ha => s.memRead_xorsum_other ha,
    s.xorsum_eq_frame⟩, fun s h => ?specExample⟩
  case parity =>
    rw [s.memRead_xorsum_zero, s.toNat_getLsbD_xorOfBytes]
  case specExample =>
    rw [State.frameBytes_eq, List.tail_cons] at h
    simp only [List.cons.injEq, and_true] at h
    obtain ⟨h1, h2, h3, h4, h5, h6, h7⟩ := h
    rw [s.memRead_xorsum_zero, State.xorOfBytes, h1, h2, h3, h4, h5, h6, h7]
    decide

/-- Settles O20: ENCODE is its two steps, each of which reads and writes the frame alone. -/
theorem encodeDependsOnTheFrameAlone : Obligations.EncodeDependsOnTheFrameAlone := by
  refine ⟨fun s => ?step, fun _ _ h => State.memRead_encodeFrame_congr h, fun s h => ?specExample⟩
  case step =>
    exact ⟨s.encodeFrame_eq, s.encodeFrame_eq_frame, s.memRead_encodeFrame_one.trans s.memRead_ctrAdv_one,
      s.memRead_encodeFrame_zero, fun _ h0 h1 => s.memRead_encodeFrame_other h0 h1⟩
  case specExample =>
    rw [State.frameBytes_eq] at h
    simp only [List.cons.injEq, and_true] at h
    obtain ⟨-, h1, h2, h3, h4, h5, h6, h7⟩ := h
    have hctr : s.encodeFrame.memRead 1 = 1#8 := by
      rw [s.memRead_encodeFrame_one, s.memRead_ctrAdv_one, h1]
      decide
    have hchk : s.encodeFrame.memRead 0 = 1#8 := by
      rw [s.memRead_encodeFrame_zero, hctr, h2, h3, h4, h5, h6, h7]
      decide
    simp [hchk, hctr, State.memRead_encodeFrame_other, h2, h3, h4, h5, h6, h7]

end Sys2Proof.Machine
end

section
/-! SUPPORT. BroadcastScheduler, 43_scheduler.md: the three results of phase (a) as equations, what it records and
emits, and when a failure reaches the threshold. -/

namespace Sys2Proof.Machine

/-! ### Phase (a), by its result -/

theorem State.schedulerPhase_of_not_due (s : State) {now : TimeReg} (ok : Bool) (h : s.isDue now = false) :
    s.schedulerPhase now ok = s := by
  rw [State.schedulerPhase, h, if_neg Bool.false_ne_true]

theorem State.schedulerPhase_of_success (s : State) {now : TimeReg} (h : s.isDue now = true) :
    s.schedulerPhase now true = { s with
      frame := s.encodeFrame.frame
      out := s.out ++ [s.encodeFrame.txRequest]
      lastSend := now
      failcnt := 0
      sched := .idle } := by
  rcases s.schedulerPhase_cases now true with ⟨hquiet, -⟩ | ⟨-, -, hsent⟩ | ⟨-, hok, -⟩
  · exact absurd (hquiet.symm.trans h) Bool.false_ne_true
  · exact hsent
  · exact absurd hok.symm Bool.false_ne_true

theorem State.schedulerPhase_of_failure (s : State) {now : TimeReg} (h : s.isDue now = true) :
    s.schedulerPhase now false = { s with
      frame := s.encodeFrame.frame
      out := s.out ++ s.encodeFrame.txRequest
        :: (if s.cfg.consoleEn then [.con (.txFailed (s.failcnt + 1))] else [])
      lastSend := now
      failcnt := s.failcnt + 1
      sched := if s.cfg.maxFail ≤ (s.failcnt + 1).toNat then .faulted else .idle } := by
  rcases s.schedulerPhase_cases now false with ⟨hquiet, -⟩ | ⟨-, hok, -⟩ | ⟨-, -, hfailed⟩
  · exact absurd (hquiet.symm.trans h) Bool.false_ne_true
  · exact absurd hok Bool.false_ne_true
  · exact hfailed

/-! ### The attempt: what it records and what it emits -/

/-- The attempt time is recorded "regardless of outcome" (43_scheduler.md rule R104). -/
theorem State.schedulerPhase_lastSend_of_due (s : State) {now : TimeReg} (ok : Bool) (h : s.isDue now = true) :
    (s.schedulerPhase now ok).lastSend = now := by
  cases ok with
  | true => rw [s.schedulerPhase_of_success h]
  | false => rw [s.schedulerPhase_of_failure h]

/-- The next attempt is measured from this one, whatever the answer. -/
theorem State.isDue_schedulerPhase_iff (s : State) {now : TimeReg} (ok : Bool) (h : s.isDue now = true)
    (later : TimeReg) :
    (s.schedulerPhase now ok).isDue later = true ↔ s.cfg.period ≤ (later - now).toNat := by
  obtain ⟨hcfg, -⟩ := s.schedulerPhase_frame_rule now ok
  rw [State.isDue_iff, s.schedulerPhase_lastSend_of_due ok h, hcfg]

/-- The transmit request of an attempt, byte by byte (30_encoding.md rule R57). -/
theorem State.txRequest_encodeFrame (s : State) :
    s.encodeFrame.txRequest = .tx s.cfg.netId 8 [s.encodeFrame.memRead 0, s.encodeFrame.memRead 1,
      s.encodeFrame.memRead 2, s.encodeFrame.memRead 3, s.encodeFrame.memRead 4, s.encodeFrame.memRead 5,
      s.encodeFrame.memRead 6, s.encodeFrame.memRead 7] := by
  rw [State.txRequest, State.frameBytes_eq, State.encodeFrame_cfg, payloadLength]

/-- The failure report holds console records only: no second `TX` and no `RESTART`. -/
theorem eq_con_of_mem_report {b : Bool} {r : Record} {o : Output} (h : o ∈ if b then [Output.con r] else []) :
    o = .con r := by
  cases b with
  | true => exact List.mem_singleton.mp h
  | false => exact absurd h List.not_mem_nil

/-- A due phase (a) emits one transmit request; no other follows it, and nothing does on success. -/
theorem State.schedulerPhase_out_of_due (s : State) {now : TimeReg} (ok : Bool) (h : s.isDue now = true) :
    ∃ more : List Output, (∀ id len bytes, Output.tx id len bytes ∉ more)
      ∧ (s.schedulerPhase now ok).out = s.out ++ s.encodeFrame.txRequest :: more ∧ (ok = true → more = []) := by
  cases ok with
  | true =>
    refine ⟨[], fun _ _ _ => List.not_mem_nil, ?_, fun _ => rfl⟩
    rw [s.schedulerPhase_of_success h]
  | false =>
    refine ⟨if s.cfg.consoleEn then [.con (.txFailed (s.failcnt + 1))] else [], fun _ _ _ hmem => ?_, ?_,
      fun hok => absurd hok Bool.false_ne_true⟩
    · exact Output.noConfusion (eq_con_of_mem_report hmem)
    · rw [s.schedulerPhase_of_failure h]

/-- Phase (a) emits no `RESTART`: that is the supervisor's part of the tick. -/
theorem State.restart_mem_of_mem_schedulerPhase (s : State) (now : TimeReg) (ok : Bool) {c : Cause}
    (h : Output.restart c ∈ (s.schedulerPhase now ok).out) : Output.restart c ∈ s.out := by
  rcases s.schedulerPhase_cases now ok with ⟨-, hu⟩ | ⟨-, -, hu⟩ | ⟨-, -, hu⟩
  · rwa [hu] at h
  · rw [hu] at h
    simpa [State.txRequest] using h
  · rw [hu] at h
    rcases List.mem_append.mp h with hold | hnew
    · exact hold
    · rcases List.mem_cons.mp hnew with htx | hreport
      · exact Output.noConfusion htx
      · exact Output.noConfusion (eq_con_of_mem_report hreport)

/-! ### The threshold -/

/-- Below 255 the failure counter does not wrap (10_state.md rule R15, `MAX_FAIL <= 255`). -/
theorem State.toNat_failcnt_add_one (s : State) (h : s.failcnt.toNat + 1 ≤ 255) :
    (s.failcnt + 1).toNat = s.failcnt.toNat + 1 := by
  bv_omega

/-- A failed attempt ends Faulted exactly where the new count reaches `MAX_FAIL` (43_scheduler.md rule R107). -/
theorem State.schedulerPhase_faulted_iff (s : State) {now : TimeReg} (h : s.isDue now = true)
    (hn : s.failcnt.toNat + 1 ≤ 255) :
    (s.schedulerPhase now false).sched = .faulted ↔ s.cfg.maxFail ≤ s.failcnt.toNat + 1 := by
  rw [s.schedulerPhase_of_failure h, s.toNat_failcnt_add_one hn]
  by_cases hmax : s.cfg.maxFail ≤ s.failcnt.toNat + 1 <;> simp [hmax]

@[simp] theorem State.forceRestart_out (s : State) (t0 : Nat) :
    (s.forceRestart t0).out = s.out ++ [.restart .exhausted] := rfl

/-- A tick whose phase (a) does not end Faulted goes on to a next state, with no restart. -/
theorem goesTo_tick_without_restart (s : State) (t t0 : Nat) (cmd : Option CmdWord) (ok : Bool)
    (h : (s.schedulerPhase (timeReg t) ok).sched ≠ .faulted) :
    GoesTo (tick t cmd ok t0 s) fun u => ∀ c, Output.restart c ∈ u.out → Output.restart c ∈ s.out := by
  obtain ⟨u, hu⟩ := tick_next t cmd ok t0 s
  refine ⟨u, hu, fun c hc => s.restart_mem_of_mem_schedulerPhase (timeReg t) ok ?_⟩
  rcases tick_effect hu with ⟨hfaulted, -⟩ | ⟨-, m, response, rfl, hresponse, -⟩
  · exact absurd hfaulted h
  · rcases hresponse with rfl | ⟨-, r, rfl⟩ <;> simpa using hc

end Sys2Proof.Machine
end

section
/-! SUPPORT. The statements of 43_scheduler.md on phase (a) and the threshold settled. -/

namespace Sys2Proof.Machine

/-- Settles O24: the due test is the comparison, and phase (a) tests nothing else. -/
theorem notDueMeansNoChange : Obligations.NotDueMeansNoChange := by
  intro s now ok
  refine ⟨s.isDue_iff now, fun hlt => s.schedulerPhase_of_not_due ok ?_⟩
  rw [Bool.eq_false_iff, ne_eq, State.isDue_iff]
  exact Nat.not_le.mpr hlt

/-- Settles O25: by the equations of a successful and of a failed attempt, which share all but the failure's count and
report. -/
theorem dueAttemptEncodesSendsAndRecords : Obligations.DueAttemptEncodesSendsAndRecords := by
  intro s now ok helapsed
  have hdue : s.isDue now = true := (s.isDue_iff now).mpr helapsed
  refine ⟨s.schedulerPhase_lastSend_of_due ok hdue, s.memRead_schedulerPhase_of_due ok hdue, ?sends, ?success,
    ?failure, s.isDue_schedulerPhase_iff ok hdue, s.schedulerPhase_frame_rule now ok⟩
  case sends =>
    rw [← s.txRequest_encodeFrame]
    exact s.schedulerPhase_out_of_due ok hdue
  case success =>
    rintro rfl
    rw [s.schedulerPhase_of_success hdue]
    exact ⟨rfl, rfl⟩
  case failure =>
    rintro rfl
    rw [s.schedulerPhase_of_failure hdue]

/-- Settles O27: the count does not wrap below `MAX_FAIL <= 255`, so phase (a) ends Faulted exactly at the threshold,
and only then is the tick a restart. -/
theorem thresholdFailureRestartsAtOnce : Obligations.ThresholdFailureRestartsAtOnce := by
  intro s t t0 cmd hdue hbound
  refine ⟨fun hreached => ?atThreshold, fun hbelow => ?below⟩
  case atThreshold =>
    have hfaulted : (s.schedulerPhase (timeReg t) false).sched = .faulted :=
      (s.schedulerPhase_faulted_iff hdue (by omega)).mpr hreached.ge
    have hcount : s.failcnt + 1 = BitVec.ofNat 8 s.cfg.maxFail := by
      rw [← hreached, ← s.toNat_failcnt_add_one (by omega), BitVec.ofNat_toNat, BitVec.setWidth_eq]
    refine ⟨?_, hfaulted, ?_⟩
    · rcases tick_cases t cmd false t0 s with ⟨-, hrestart⟩ | ⟨hnot, -⟩
      · exact hrestart
      · exact absurd hfaulted hnot
    · rw [State.forceRestart_out, s.schedulerPhase_of_failure hdue, hcount, List.append_assoc, List.cons_append]
  case below =>
    refine goesTo_tick_without_restart s t t0 cmd false fun hfaulted => ?_
    exact absurd ((s.schedulerPhase_faulted_iff hdue (by omega)).mp hfaulted) (by omega)

end Sys2Proof.Machine
end

section
/-! SUPPORT. Supervisor and watchdog, 44_supervisor.md: the state a restart leaves, element by element, and that no
phase of a tick but (c) feeds the watchdog. -/

namespace Sys2Proof.Machine

/-- The state after a restart, element by element: of the state before, only the configuration, the environment's
fields and the outputs are read. -/
theorem State.restart_eq (s : State) (c : Cause) (t0 : Nat) : s.restart c t0 = {
    frame := []
    failcnt := 0
    lastSend := timeReg t0
    sched := .idle
    phase := .a
    wdtArmed := true
    wdtLimit := BitVec.ofNat 32 s.cfg.wdtTimeout
    wdtFedAt := t0
    cfg := s.cfg
    time := t0
    inputs := s.inputs
    draws := s.draws
    out := s.out ++ [.restart c]
    resetOut := s.resetOut ++ [.wdtArm (BitVec.ofNat 32 s.cfg.wdtTimeout)] } := rfl

@[simp] theorem State.forceRestart_wdtFedAt (s : State) (t0 : Nat) : (s.forceRestart t0).wdtFedAt = t0 := rfl

/-- All that phase (a) can emit: the transmit request of its attempt and console records. -/
theorem State.mem_schedulerPhase_out (s : State) (now : TimeReg) (ok : Bool) {o : Output}
    (h : o ∈ (s.schedulerPhase now ok).out) : o ∈ s.out ∨ o = s.encodeFrame.txRequest ∨ ∃ r, o = .con r := by
  rcases s.schedulerPhase_cases now ok with ⟨-, hu⟩ | ⟨-, -, hu⟩ | ⟨-, -, hu⟩
  · rw [hu] at h
    exact .inl h
  · rw [hu] at h
    exact (List.mem_append.mp h).imp_right fun hnew => .inl (List.mem_singleton.mp hnew)
  · rw [hu] at h
    refine (List.mem_append.mp h).imp_right fun hnew => ?_
    exact (List.mem_cons.mp hnew).imp_right fun hreport => ⟨_, eq_con_of_mem_report hreport⟩

/-- Phase (a) feeds no watchdog: the heartbeat is phase (c)'s alone (44_supervisor.md rule R121). -/
theorem State.hb_notMem_schedulerPhase_out (s : State) (now : TimeReg) (ok : Bool) (h : Output.hb ∉ s.out) :
    Output.hb ∉ (s.schedulerPhase now ok).out := by
  intro hmem
  rcases s.mem_schedulerPhase_out now ok hmem with hold | htx | ⟨r, hcon⟩
  · exact h hold
  · exact Output.noConfusion htx
  · exact Output.noConfusion hcon

end Sys2Proof.Machine
end

section
/-! SUPPORT. The statements of 44_supervisor.md on the heartbeat and on the two restarts settled. -/

namespace Sys2Proof.Machine

/-- Settles O32: phases (a) and (b) emit no heartbeat, so a tick that reaches phase (c) has that phase's one, and one
that restarts out of phase (a) has none. -/
theorem oneHeartbeatPerHealthyTick : Obligations.OneHeartbeatPerHealthyTick := by
  refine ⟨fun s t => rfl, fun s u t t0 cmd ok hout _ hu => ?_⟩
  have hphaseA : (s.schedulerPhase (timeReg t) ok).out.count .hb = 0 :=
    List.count_eq_zero.mpr (s.hb_notMem_schedulerPhase_out _ ok (hout ▸ List.not_mem_nil))
  rcases tick_effect hu with ⟨-, hrestarted⟩ | ⟨hhealthy, m, response, hended, hresponse, -⟩
  · right
    rw [hrestarted, State.forceRestart_out, State.forceRestart_wdtFedAt, List.count_append, hphaseA]
    exact ⟨rfl, rfl, List.getLast?_concat⟩
  · left
    have hphaseB : response.count .hb = 0 := by
      rcases hresponse with rfl | ⟨-, r, rfl⟩ <;> rfl
    have hnoRestart : Output.restart .exhausted ∉ u.out := by
      obtain ⟨v, hv, hkept⟩ := goesTo_tick_without_restart s t t0 cmd ok hhealthy
      cases hu.symm.trans hv
      exact fun hmem => absurd (hkept _ hmem) (hout ▸ List.not_mem_nil)
    refine ⟨?_, hended ▸ rfl, hnoRestart⟩
    rw [hended, List.count_append, List.count_append, hphaseA, hphaseB]
    rfl

/-- Settles O34: a restart writes every element of the block, from the start time and the configuration alone. -/
theorem restartsForgetEverything : Obligations.RestartsForgetEverything := by
  refine ⟨fun s t0 => ⟨rfl, rfl, rfl⟩, fun s t0 c => rfl, ?_⟩
  intro s u t0 c hcfg hinputs hdraws hout hresetOut
  rw [s.restart_eq, u.restart_eq, hcfg, hinputs, hdraws, hout, hresetOut]

end Sys2Proof.Machine
end

section
/-! SUPPORT. The console, 45_console.md: a command word's three fields as numbers, what each class of words decodes to
and is served as, the two informational records, and the tick that serves a word. -/

namespace Sys2Proof

/-! ### The fields of a word as numbers (30_encoding.md rule R49) -/

theorem toNat_opOf (w : CmdWord) : (opOf w).toNat = w.toNat / 4096 := by
  rw [opOf, BitVec.extractLsb'_toNat, Nat.shiftRight_eq_div_pow]
  omega

theorem toNat_fselOf (w : CmdWord) : (fselOf w).toNat = w.toNat / 256 % 16 := by
  rw [fselOf, BitVec.extractLsb'_toNat, Nat.shiftRight_eq_div_pow]

theorem toNat_valOf (w : CmdWord) : (valOf w).toNat = w.toNat % 256 := by
  rw [valOf, BitVec.extractLsb'_toNat, Nat.shiftRight_zero]

theorem operandOf_eq_mod (w : CmdWord) : operandOf w = w.toNat % 256 := toNat_valOf w

/-! ### What a word decodes to, by its fields -/

theorem decode_help_word : decode 0x1000#16 = .instr .help := by decide

theorem decode_status_word : decode 0x2000#16 = .instr .status := by decide

/-- A `SET` word is the command of the field whose number it carries, with its low byte (30_encoding.md rule R50). -/
theorem decode_of_set_fields (f : Settable) {w : CmdWord} (hop : w.toNat / 4096 = 3)
    (hfsel : w.toNat / 256 % 16 = f.field.number) : decode w = .instr (f.command (w.toNat % 256)) := by
  have hset : decode w = decodeSet w := by simp only [decode, toNat_opOf, hop]
  rw [hset]
  simp only [decodeSet, toNat_fselOf, hfsel, operandOf_eq_mod]
  cases f <;> rfl

/-- `HELP` and `STATUS` have no operand: a bit set below `OP` makes the word unrecognized (30_encoding.md rule R52). -/
theorem decodePlain_of_operand {w : CmdWord} (i : Instr) (h : w.toNat % 4096 ≠ 0) :
    decodePlain w i = .unrecognized .operandNotZero := by
  refine if_neg ?_
  rintro ⟨hfsel, hval⟩
  have hfsel0 : w.toNat / 256 % 16 = 0 := by rw [← toNat_fselOf, hfsel]; rfl
  have hval0 : w.toNat % 256 = 0 := by rw [← toNat_valOf, hval]; rfl
  omega

/-- A `SET` word names one of the fields 1 to 6, or is unrecognized (30_encoding.md rule R52). -/
theorem decodeSet_of_reserved_field {w : CmdWord} (h : ¬ (1 ≤ w.toNat / 256 % 16 ∧ w.toNat / 256 % 16 ≤ 6)) :
    decodeSet w = .unrecognized .reservedField := by
  rw [← toNat_fselOf] at h
  unfold decodeSet
  split
  case h_7 => rfl
  all_goals omega

/-- No word besides the two informational ones and the `SET` words of fields 1 to 6 is a command. -/
theorem exists_decode_eq_unrecognized {w : CmdWord} (hhelp : w ≠ 0x1000#16) (hstatus : w ≠ 0x2000#16)
    (hset : ¬ (w.toNat / 4096 = 3 ∧ 1 ≤ w.toNat / 256 % 16 ∧ w.toNat / 256 % 16 ≤ 6)) :
    ∃ why, decode w = .unrecognized why := by
  have hop := toNat_opOf w
  unfold decode
  split
  case h_1 hone => exact ⟨_, decodePlain_of_operand .help (by bv_omega)⟩
  case h_2 htwo => exact ⟨_, decodePlain_of_operand .status (by bv_omega)⟩
  case h_3 hthree => exact ⟨_, decodeSet_of_reserved_field fun hfsel => hset ⟨by omega, hfsel⟩⟩
  case h_4 => exact ⟨_, rfl⟩

end Sys2Proof

namespace Sys2Proof.Machine

/-! ### `SERVE`, by what the word decodes to -/

theorem serve_of_instr {w : CmdWord} {i : Instr} (h : decode w = .instr i) (s : State) : serve w s = exec i s := by
  rw [serve, h]

theorem serve_of_unrecognized {w : CmdWord} {why : Reject} (h : decode w = .unrecognized why) (s : State) :
    serve w s = .next (s.unrecognized w) := by
  rw [serve, h]

/-- A word of no command leaves one `UNRECOGNIZED` record (45_console.md rule R140). -/
theorem State.unrecognized_eq (s : State) (w : CmdWord) :
    s.unrecognized w = { s with out := s.out ++ [.con (.unrecognized w)] } := rfl

/-! ### The informational commands -/

theorem exec_help (s : State) : exec .help s = .next (s.emitCon (.helpInfo helpTable)) := rfl

theorem helpTable_eq : helpTable = [
    ⟨1, "rolling counter", 0, 15⟩, ⟨2, "warn-pulse activation level", 0, 9⟩,
    ⟨3, "prefill-active flag", 0, 1⟩, ⟨4, "deceleration-regulation activation level", 0, 15⟩,
    ⟨5, "deceleration-regulation unavailable flag", 0, 1⟩,
    ⟨6, "driver-brake-pressure-determining flag", 0, 1⟩] := rfl

theorem exec_status (s : State) : exec .status s = .next (s.emitCon s.statusRecord) := rfl

/-- The counter and the checksum a status listing shows are bits of bytes 1 and 0, on every layout. -/
theorem State.statusRecord_eq (s : State) :
    s.statusRecord = .statusInfo (s.memRead 1 &&& 0x0F#8) (s.getF .warn) (s.getF .prefill) (s.getF .decel)
      (s.getF .decelNv) (s.getF .drvbrk) (s.memRead 0) := by
  rw [State.statusRecord, State.getF_ctr, State.getF_chk]

/-- On the default layout the listing is a formula of bytes 0, 1 and 2 (30_encoding.md rule R46). -/
theorem State.statusRecord_of_default {s : State} (hL : s.cfg.layout = Layout.default) :
    s.statusRecord = .statusInfo (s.memRead 1 &&& 0x0F#8) ((s.memRead 1 >>> 4) &&& 0x0F#8) (s.memRead 2 &&& 0x01#8)
      ((s.memRead 2 >>> 1) &&& 0x0F#8) ((s.memRead 2 >>> 5) &&& 0x01#8) ((s.memRead 2 >>> 6) &&& 0x01#8)
      (s.memRead 0) := by
  rw [State.statusRecord_eq]
  simp only [State.getF_of_layout hL]
  rfl

/-! ### The tick that serves a word -/

/-- With a console and no restart, a tick serves its word on what phase (a) left, and then runs phase (c). -/
theorem tick_of_served {s b : State} {t t0 : Nat} {w : CmdWord} {ok : Bool} (hen : s.cfg.consoleEn = true)
    (hhealthy : (s.schedulerPhase (timeReg t) ok).sched ≠ .faulted)
    (hserve : serve w { s.schedulerPhase (timeReg t) ok with phase := .b } = .next b) :
    tick t (some w) ok t0 s = .next ({ b with phase := .c }.supervisorPhase t) := by
  obtain ⟨hcfg, -⟩ := s.schedulerPhase_frame_rule (timeReg t) ok
  have hconsole : consolePhase (some w) { s.schedulerPhase (timeReg t) ok with phase := .b } = .next b :=
    (if_pos (hcfg ▸ hen)).trans hserve
  rcases tick_cases t (some w) ok t0 s with ⟨hfaulted, -⟩ | ⟨-, hgoesOn⟩
  · exact absurd hfaulted hhealthy
  · rw [hgoesOn, hconsole]
    rfl

/-- A healthy tick that serves `STATUS` lists the frame as phase (a) left it, just before the heartbeat. -/
theorem goesTo_tick_status (s : State) (t t0 : Nat) {ok : Bool} (hen : s.cfg.consoleEn = true)
    (hhealthy : (s.schedulerPhase (timeReg t) ok).sched ≠ .faulted) :
    GoesTo (tick t (some 0x2000#16) ok t0 s) fun u =>
      u.out = (s.schedulerPhase (timeReg t) ok).out ++ [.con (s.schedulerPhase (timeReg t) ok).statusRecord, .hb] := by
  refine ⟨_, tick_of_served hen hhealthy ((serve_of_instr decode_status_word _).trans (exec_status _)), ?_⟩
  exact List.append_assoc (s.schedulerPhase (timeReg t) ok).out [.con _] [.hb]

end Sys2Proof.Machine
end

section
/-! SUPPORT. The statements of 45_console.md on `HELP`, `STATUS` and the dispatch of a word settled. -/

namespace Sys2Proof.Machine

/-- Settles O6: the record is the constant table, row by row. -/
theorem helpListsFieldsAndRanges : Obligations.HelpListsFieldsAndRanges := by
  refine ⟨decode_help_word, fun s => ?_⟩
  rw [exec_help, helpTable_eq]
  rfl

/-- Settles O7: the record shows the fields as stored, and in a tick that sends, phase (b) finds the frame that phase
(a) transmitted. -/
theorem statusReportsStoredFields : Obligations.StatusReportsStoredFields := by
  refine ⟨decode_status_word, exec_status, State.getF_chk, fun s t t0 ok hen hdue hhealthy => ?sameTick,
    fun s hL hbytes => ?specExample⟩
  case sameTick =>
    obtain ⟨u, hu, hout⟩ := goesTo_tick_status s t t0 hen hhealthy
    obtain ⟨failed, -, hsent, -⟩ := s.schedulerPhase_out_of_due ok hdue
    rw [hsent, s.txRequest_encodeFrame, State.statusRecord_eq, s.memRead_schedulerPhase_of_due ok hdue,
      s.memRead_schedulerPhase_of_due ok hdue] at hout
    exact ⟨u, hu, _, _, _, failed, _, _, _, _, _, hout⟩
  case specExample =>
    rw [State.frameBytes_eq] at hbytes
    simp only [List.cons.injEq] at hbytes
    obtain ⟨h0, h1, h2, -⟩ := hbytes
    rw [exec_status, State.statusRecord_of_default hL, h0, h1, h2]
    rfl

/-- Settles O10: every word is served as it decodes, and each of the four classes of words decodes to one thing. -/
theorem serveDispatchesEveryWord : Obligations.ServeDispatchesEveryWord := by
  have hother : ∀ (s : State) (w : CmdWord), w ≠ 0x1000#16 → w ≠ 0x2000#16 →
      ¬ (w.toNat / 4096 = 3 ∧ 1 ≤ w.toNat / 256 % 16 ∧ w.toNat / 256 % 16 ≤ 6) →
      serve w s = .next { s with out := s.out ++ [.con (.unrecognized w)] } := by
    intro s w hhelp hstatus hset
    obtain ⟨why, hwhy⟩ := exists_decode_eq_unrecognized hhelp hstatus hset
    rw [serve_of_unrecognized hwhy, State.unrecognized_eq]
  refine ⟨fun w s => ?oneRecord, serve_of_instr decode_help_word, serve_of_instr decode_status_word,
    fun s f w hop hfsel => ?setField, hother, fun s => hother s _ (by decide) (by decide) (by decide)⟩
  case oneRecord =>
    obtain ⟨m, r, hserved, -⟩ := serve_cases w s
    exact ⟨_, hserved, r, rfl⟩
  case setField =>
    rw [serve_of_instr (decode_of_set_fields f hop hfsel), exec_command]

end Sys2Proof.Machine
end

section
/-! SUPPORT. The error classes, 60_exceptions.md: the commands that write nothing, the ticks in which no command is
served, and what one more record before the heartbeat changes. -/

namespace Sys2Proof.Machine

/-! ### The commands that write nothing -/

/-- The words whose service writes no state, each with the one record it leaves: the unrecognized ones
(45_console.md rule R140), `HELP` (rule R137) and the set commands above their bound (60_exceptions.md rule R151). -/
def WritesNothing (w : CmdWord) (r : Record) : Prop :=
  (∃ why, decode w = .unrecognized why) ∧ r = .unrecognized w
    ∨ decode w = .instr .help ∧ r = .helpInfo helpTable
    ∨ ∃ (f : Settable) (x : Nat), f.maxVal < x ∧ decode w = .instr (f.command x) ∧ r = .setRejected f x

theorem serve_of_writesNothing {w : CmdWord} {r : Record} (h : WritesNothing w r) (s : State) :
    serve w s = .next (s.emitCon r) := by
  rcases h with ⟨⟨why, hwhy⟩, rfl⟩ | ⟨hhelp, rfl⟩ | ⟨f, x, hx, hset, rfl⟩
  · exact serve_of_unrecognized hwhy s
  · exact (serve_of_instr hhelp s).trans (exec_help s)
  · rw [serve_of_instr hset, exec_command, State.setF_rejected s f x hx]

/-! ### The tick in which no command is served -/

/-- A restart out of phase (a) takes no account of the command (43_scheduler.md rule R107). -/
theorem tick_of_faulted {s : State} {t : Nat} {ok : Bool} (h : (s.schedulerPhase (timeReg t) ok).sched = .faulted)
    (cmd : Option CmdWord) (t0 : Nat) :
    tick t cmd ok t0 s = .next ((s.schedulerPhase (timeReg t) ok).forceRestart t0) := by
  rcases tick_cases t cmd ok t0 s with ⟨-, hrestart⟩ | ⟨hhealthy, -⟩
  · exact hrestart
  · exact absurd h hhealthy

/-- The command enters a tick through phase (b) alone (45_console.md rule R135). -/
theorem tick_congr_command {s : State} {t : Nat} {cmd cmd' : Option CmdWord} {ok : Bool}
    (h : consolePhase cmd { s.schedulerPhase (timeReg t) ok with phase := .b }
      = consolePhase cmd' { s.schedulerPhase (timeReg t) ok with phase := .b }) (t0 : Nat) :
    tick t cmd ok t0 s = tick t cmd' ok t0 s := by
  simp only [tick, h]

/-- In a deployed build, and where phase (a) restarts, the command of a tick is ignored. -/
theorem tick_of_ignored_command {s : State} {t : Nat} {ok : Bool}
    (h : s.cfg.consoleEn = false ∨ (s.schedulerPhase (timeReg t) ok).sched = .faulted) (cmd cmd' : Option CmdWord)
    (t0 : Nat) : tick t cmd ok t0 s = tick t cmd' ok t0 s := by
  rcases h with hdeployed | hfaulted
  · obtain ⟨hcfg, -⟩ := s.schedulerPhase_frame_rule (timeReg t) ok
    have hphaseB := consolePhase_of_no_console { s.schedulerPhase (timeReg t) ok with phase := .b } (hcfg ▸ hdeployed)
    exact tick_congr_command ((hphaseB cmd).trans (hphaseB cmd').symm) t0
  · rw [tick_of_faulted hfaulted cmd, tick_of_faulted hfaulted cmd']

/-- Without a command, phase (c) follows on phase (a). -/
theorem tick_without_command {s : State} {t : Nat} {ok : Bool}
    (hhealthy : (s.schedulerPhase (timeReg t) ok).sched ≠ .faulted) (t0 : Nat) :
    tick t none ok t0 s = .next ({ s.schedulerPhase (timeReg t) ok with phase := .c }.supervisorPhase t) := by
  rcases tick_cases t none ok t0 s with ⟨hfaulted, -⟩ | ⟨-, hgoesOn⟩
  · exact absurd hfaulted hhealthy
  · exact hgoesOn

/-! ### One more record before the heartbeat -/

/-- `u` is `v` with the record `r` emitted right before the heartbeat that ends `v`'s outputs. -/
def AddsRecord (r : Record) (v u : State) : Prop :=
  ∃ before, v.out = before ++ [.hb] ∧ u = { v with out := before ++ [.con r, .hb] }

/-- A record shows on the console port and nowhere else: it is no heartbeat, no restart and no state. -/
theorem AddsRecord.same_but_out {r : Record} {v u : State} (h : AddsRecord r v u) :
    { u with out := [] } = { v with out := [] } ∧ u.heartbeats = v.heartbeats ∧ u.restarts = v.restarts := by
  obtain ⟨before, hout, rfl⟩ := h
  refine ⟨rfl, ?_, ?_⟩
  · simp [State.heartbeats, State.outputs, hout]
  · simp [State.restarts, State.outputs, hout]

/-- The tick that serves a command which writes nothing is the tick without it, and one record. -/
theorem tick_addsRecord {s : State} {t : Nat} {w : CmdWord} {ok : Bool} {r : Record} (hw : WritesNothing w r)
    (hen : s.cfg.consoleEn = true) (hhealthy : (s.schedulerPhase (timeReg t) ok).sched ≠ .faulted) (t0 : Nat) :
    ∃ u v, tick t (some w) ok t0 s = .next u ∧ tick t none ok t0 s = .next v ∧ AddsRecord r v u := by
  refine ⟨_, _, tick_of_served hen hhealthy (serve_of_writesNothing hw _), tick_without_command hhealthy t0,
    (s.schedulerPhase (timeReg t) ok).out, rfl, ?_⟩
  simp [State.supervisorPhase, State.heartbeat, State.emitCon, State.emit]

end Sys2Proof.Machine
end

section
/-! SUPPORT. The statement of 60_exceptions.md on the commands that write nothing settled. -/

namespace Sys2Proof.Machine

/-- Settles O38: either the tick ignores its command, or it serves it, and serving a command that writes nothing adds
one record to what the tick without it emits. -/
theorem commandsThatWriteNothingLeaveOnlyARecord : Obligations.CommandsThatWriteNothingLeaveOnlyARecord := by
  refine ⟨fun s u v t t0 w ok r hw hu hv => ?_, .reservedField, by decide⟩
  by_cases hignored : s.cfg.consoleEn = false ∨ (s.schedulerPhase (timeReg t) ok).sched = .faulted
  case pos =>
    rw [tick_of_ignored_command hignored (some w) none t0] at hu
    obtain rfl : u = v := Host.Outcome.next.inj (hu.symm.trans hv)
    refine ⟨rfl, rfl, rfl, fun hen hhealthy => ?_, fun _ => rfl⟩
    rcases hignored with hdeployed | hfaulted
    · exact absurd (hdeployed.symm.trans hen) Bool.false_ne_true
    · exact absurd hfaulted hhealthy
  case neg =>
    obtain ⟨hconsole, hhealthy⟩ := not_or.mp hignored
    obtain ⟨u', v', hu', hv', hadds⟩ := tick_addsRecord hw (eq_true_of_ne_false hconsole) hhealthy t0
    obtain rfl : u = u' := Host.Outcome.next.inj (hu.symm.trans hu')
    obtain rfl : v = v' := Host.Outcome.next.inj (hv.symm.trans hv')
    obtain ⟨hstate, hheartbeats, hrestarts⟩ := hadds.same_but_out
    refine ⟨hstate, hheartbeats, hrestarts, fun _ _ => ?_, fun h => absurd h hignored⟩
    obtain ⟨before, hout, rfl⟩ := hadds
    exact ⟨before, hout, rfl⟩

end Sys2Proof.Machine
end

section
/-! SUPPORT. The decoder and the encoder, 30_encoding.md sections 2 and 3: the six things a word can decode to, the
words of the set commands, and which words a row of the opcode map selects. -/

namespace Sys2Proof

/-! ### The fields determine the word -/

theorem cmdWord_eq_of_fields {w x : CmdWord} (hop : opOf w = opOf x) (hfsel : fselOf w = fselOf x)
    (hval : valOf w = valOf x) : w = x := by
  have hop' := congrArg BitVec.toNat hop
  have hfsel' := congrArg BitVec.toNat hfsel
  have hval' := congrArg BitVec.toNat hval
  simp only [toNat_opOf, toNat_fselOf, toNat_valOf] at hop' hfsel' hval'
  apply BitVec.eq_of_toNat_eq
  omega

/-- A word with `OP` 3 is the word of its own field number and low byte. -/
theorem setWord_of_fields {w : CmdWord} {n : Nat} (hop : w.toNat / 4096 = 3) (hfsel : w.toNat / 256 % 16 = n) :
    setWord (BitVec.ofNat 4 n) (w.toNat % 256) = w := by
  apply cmdWord_eq_of_fields
  · rw [Machine.opOf_setWord]
    exact BitVec.eq_of_toNat_eq (by rw [toNat_opOf, hop]; rfl)
  · rw [Machine.fselOf_setWord, ← hfsel, ← toNat_fselOf, BitVec.ofNat_toNat, BitVec.setWidth_eq]
  · rw [Machine.valOf_setWord, ← toNat_valOf, BitVec.ofNat_toNat, BitVec.setWidth_eq]

/-! ### Every instruction is one of the three forms -/

theorem Instr.eq_help_or_status_or_command (i : Instr) :
    i = .help ∨ i = .status ∨ ∃ (f : Settable) (v : Nat), i = f.command v := by
  cases i with
  | help => exact .inl rfl
  | status => exact .inr (.inl rfl)
  | setCtr v => exact .inr (.inr ⟨.ctr, v, rfl⟩)
  | setWarn v => exact .inr (.inr ⟨.warn, v, rfl⟩)
  | setPrefill v => exact .inr (.inr ⟨.prefill, v, rfl⟩)
  | setDecel v => exact .inr (.inr ⟨.decel, v, rfl⟩)
  | setDecelNv v => exact .inr (.inr ⟨.decelNv, v, rfl⟩)
  | setDrvbrk v => exact .inr (.inr ⟨.drvbrk, v, rfl⟩)

theorem Settable.encode_command (f : Settable) (v : Nat) :
    encode (f.command v) = setWord (BitVec.ofNat 4 f.field.number) v := by
  cases f <;> rfl

theorem Settable.wellFormed_command (f : Settable) (v : Nat) : (f.command v).wellFormed = decide (v ≤ 255) := by
  cases f <;> rfl

/-- The numbers 1 to 6 are those of the settable fields (10_state.md rule R12). -/
theorem Settable.exists_number_eq {n : Nat} (h1 : 1 ≤ n) (h6 : n ≤ 6) : ∃ f : Settable, f.field.number = n := by
  have hall : ∀ k : Fin 7, 1 ≤ k.val → ∃ f ∈ allSettable, f.field.number = k.val := by decide
  obtain ⟨f, -, hf⟩ := hall ⟨n, by omega⟩ h1
  exact ⟨f, hf⟩

/-! ### What a word can decode to -/

/-- The six things a word decodes to, each with the words that do (30_encoding.md rules R50 and R52). -/
theorem decode_cases (w : CmdWord) :
    ((w.toNat / 4096 = 0 ∨ 4 ≤ w.toNat / 4096) ∧ decode w = .unrecognized .reservedOp)
      ∨ (((w.toNat / 4096 = 1 ∨ w.toNat / 4096 = 2) ∧ w.toNat % 4096 ≠ 0) ∧ decode w = .unrecognized .operandNotZero)
      ∨ ((w.toNat / 4096 = 3 ∧ (w.toNat / 256 % 16 = 0 ∨ 7 ≤ w.toNat / 256 % 16))
          ∧ decode w = .unrecognized .reservedField)
      ∨ (w = 0x1000#16 ∧ decode w = .instr .help)
      ∨ (w = 0x2000#16 ∧ decode w = .instr .status)
      ∨ ∃ f : Settable, (w.toNat / 4096 = 3 ∧ w.toNat / 256 % 16 = f.field.number)
          ∧ decode w = .instr (f.command (w.toNat % 256)) := by
  have hword : ∀ n < 65536, w.toNat = n → w = BitVec.ofNat 16 n := fun n hn h =>
    BitVec.eq_of_toNat_eq (by rw [h, BitVec.toNat_ofNat, Nat.mod_eq_of_lt hn])
  have hop := toNat_opOf w
  by_cases hset : w.toNat / 4096 = 3 ∧ 1 ≤ w.toNat / 256 % 16 ∧ w.toNat / 256 % 16 ≤ 6
  · obtain ⟨h3, hlow, hhigh⟩ := hset
    obtain ⟨f, hf⟩ := Settable.exists_number_eq hlow hhigh
    exact .inr (.inr (.inr (.inr (.inr ⟨f, ⟨h3, hf.symm⟩, decode_of_set_fields f h3 hf.symm⟩))))
  · by_cases hzero : w.toNat % 4096 = 0 ∧ (w.toNat / 4096 = 1 ∨ w.toNat / 4096 = 2)
    · obtain ⟨hlow, h1 | h2⟩ := hzero
      · obtain rfl := hword 0x1000 (by decide) (by omega)
        exact .inr (.inr (.inr (.inl ⟨rfl, decode_help_word⟩)))
      · obtain rfl := hword 0x2000 (by decide) (by omega)
        exact .inr (.inr (.inr (.inr (.inl ⟨rfl, decode_status_word⟩))))
    · unfold decode
      split
      case h_1 hone => exact .inr (.inl ⟨by omega, decodePlain_of_operand .help (by omega)⟩)
      case h_2 htwo => exact .inr (.inl ⟨by omega, decodePlain_of_operand .status (by omega)⟩)
      case h_3 hthree =>
        exact .inr (.inr (.inl ⟨by omega, decodeSet_of_reserved_field fun hfsel => hset ⟨by omega, hfsel⟩⟩))
      case h_4 hnot1 hnot2 hnot3 =>
        have h1 : w.toNat / 4096 ≠ 1 := fun h => hnot1 (hop.trans h)
        have h2 : w.toNat / 4096 ≠ 2 := fun h => hnot2 (hop.trans h)
        have h3 : w.toNat / 4096 ≠ 3 := fun h => hnot3 (hop.trans h)
        exact .inl ⟨by omega, rfl⟩

/-- The encoder gives a word of its own instruction (30_encoding.md rule R50). -/
theorem decode_encode {i : Instr} (h : i.wellFormed = true) : decode (encode i) = .instr i := by
  rcases i.eq_help_or_status_or_command with rfl | rfl | ⟨f, v, rfl⟩
  · exact decode_help_word
  · exact decode_status_word
  · rw [f.wellFormed_command, decide_eq_true_eq] at h
    rw [f.encode_command, Machine.decode_setWord f h]

/-- A word is read whole: it is the word of what it decodes to. -/
theorem encode_of_decode {w : CmdWord} {i : Instr} (h : decode w = .instr i) :
    i.wellFormed = true ∧ encode i = w := by
  rcases decode_cases w with ⟨-, hd⟩ | ⟨-, hd⟩ | ⟨-, hd⟩ | ⟨rfl, hd⟩ | ⟨rfl, hd⟩ | ⟨f, ⟨hop, hfsel⟩, hd⟩ <;>
    cases hd.symm.trans h
  · exact ⟨rfl, rfl⟩
  · exact ⟨rfl, rfl⟩
  · refine ⟨?_, ?_⟩
    · rw [f.wellFormed_command, decide_eq_true_eq]
      omega
    · rw [f.encode_command, setWord_of_fields hop hfsel]

/-! ### The rows of the opcode map -/

theorem mem_opcodeRows {r : OpcodeRow} (h : r ∈ opcodeRows) :
    r = Instr.row .help ∨ r = Instr.row .status ∨ ∃ f : Settable, r = (f.command 0).row := by
  simp only [opcodeRows, List.mem_cons, List.not_mem_nil, or_false] at h
  rcases h with h | h | h | h | h | h | h | h
  · exact .inl h
  · exact .inr (.inl h)
  · exact .inr (.inr ⟨.ctr, h⟩)
  · exact .inr (.inr ⟨.warn, h⟩)
  · exact .inr (.inr ⟨.prefill, h⟩)
  · exact .inr (.inr ⟨.decel, h⟩)
  · exact .inr (.inr ⟨.decelNv, h⟩)
  · exact .inr (.inr ⟨.drvbrk, h⟩)

theorem OpcodeRow.selects_iff (r : OpcodeRow) (w : CmdWord) : r.selects w = true ↔ w &&& r.mask = r.matchBits :=
  beq_iff_eq

/-- The rows of the two commands without an operand test the whole word. -/
theorem eq_of_selects_whole {m w : CmdWord} (h : (⟨m, 0xFFFF#16⟩ : OpcodeRow).selects w = true) : w = m := by
  have hmask : 0xFFFF#16 = BitVec.allOnes 16 := by decide
  rwa [OpcodeRow.selects_iff, hmask, BitVec.and_allOnes] at h

/-- The row of a set command tests `OP` and the field's number. -/
theorem Settable.selects_row_command (f : Settable) (v : Nat) {w : CmdWord} (h : (f.command v).row.selects w = true) :
    w.toNat / 4096 = 3 ∧ w.toNat / 256 % 16 = f.field.number := by
  have hbits : w &&& 0xFF00#16 = setWord (BitVec.ofNat 4 f.field.number) 0 := by
    rw [OpcodeRow.selects_iff] at h
    cases f <;> exact h
  have hop : opOf w = opOf (w &&& 0xFF00#16) := by
    have hmask : opOf 0xFF00#16 = BitVec.allOnes 4 := by decide
    rw [opOf, opOf, BitVec.extractLsb'_and]
    exact (hmask ▸ BitVec.and_allOnes).symm
  have hfsel : fselOf w = fselOf (w &&& 0xFF00#16) := by
    have hmask : fselOf 0xFF00#16 = BitVec.allOnes 4 := by decide
    rw [fselOf, fselOf, BitVec.extractLsb'_and]
    exact (hmask ▸ BitVec.and_allOnes).symm
  rw [← toNat_opOf, ← toNat_fselOf, hop, hfsel, hbits, Machine.opOf_setWord, Machine.fselOf_setWord]
  cases f <;> exact ⟨rfl, rfl⟩

theorem Settable.row_command (f : Settable) (v : Nat) : (f.command v).row = (f.command 0).row := by cases f <;> rfl

/-- A row that selects a word is the row of what the word decodes to. -/
theorem decode_of_selects {r : OpcodeRow} {w : CmdWord} (hr : r ∈ opcodeRows) (hw : r.selects w = true) :
    ∃ i, decode w = .instr i ∧ i.row = r := by
  rcases mem_opcodeRows hr with rfl | rfl | ⟨f, rfl⟩
  · obtain rfl := eq_of_selects_whole hw
    exact ⟨_, decode_help_word, rfl⟩
  · obtain rfl := eq_of_selects_whole hw
    exact ⟨_, decode_status_word, rfl⟩
  · obtain ⟨hop, hfsel⟩ := f.selects_row_command 0 hw
    exact ⟨_, decode_of_set_fields f hop hfsel, f.row_command _⟩

theorem wordLiesInItsRow (i : Instr) : Laws.WordLiesInItsRow.Statement i := by
  cases i with
  | help => exact Laws.WordLiesInItsRow.help
  | status => exact Laws.WordLiesInItsRow.status
  | setCtr v => exact Laws.WordLiesInItsRow.setCtr v
  | setWarn v => exact Laws.WordLiesInItsRow.setWarn v
  | setPrefill v => exact Laws.WordLiesInItsRow.setPrefill v
  | setDecel v => exact Laws.WordLiesInItsRow.setDecel v
  | setDecelNv v => exact Laws.WordLiesInItsRow.setDecelNv v
  | setDrvbrk v => exact Laws.WordLiesInItsRow.setDrvbrk v

/-- The row of what a word decodes to is one of the eight and selects the word. -/
theorem selects_of_decode {w : CmdWord} {i : Instr} (h : decode w = .instr i) :
    i.row ∈ opcodeRows ∧ i.row.selects w = true := by
  obtain ⟨hwf, hword⟩ := encode_of_decode h
  obtain ⟨hmem, hselects⟩ := wordLiesInItsRow i hwf
  exact ⟨hmem, hword ▸ hselects⟩

end Sys2Proof
end

section
/-! SUPPORT. The statements of 30_encoding.md on the decoder and the encoder settled. -/

namespace Sys2Proof

/-- Settles O1: sixteen words, each evaluated. -/
theorem specWordsDecodeAsWritten : Obligations.SpecWordsDecodeAsWritten := by
  unfold Obligations.SpecWordsDecodeAsWritten
  decide

/-- Settles O2: for each field, the number and the low byte of its command's word are read back. -/
theorem decodeOfEncodeIsTheInstruction : Obligations.DecodeOfEncodeIsTheInstruction :=
  fun _ h => decode_encode h

/-- Settles O3: by the six things a word can decode to; the three fields of a `SET` word determine it. -/
theorem encodeOfDecodeIsTheWord : Obligations.EncodeOfDecodeIsTheWord :=
  fun _ _ h => encode_of_decode h

/-- Settles O4: two rows that select one word are both the row of the one instruction it decodes to. -/
theorem opcodeRowsAgreeWithDecode : Obligations.OpcodeRowsAgreeWithDecode := by
  intro w
  refine ⟨fun i h => selects_of_decode h, fun r hr hw => decode_of_selects hr hw, fun r hr q hq hrw hqw => ?_⟩
  obtain ⟨i, hi, rfl⟩ := decode_of_selects hr hrw
  obtain ⟨j, hj, rfl⟩ := decode_of_selects hq hqw
  cases hi.symm.trans hj
  rfl

/-- Settles O5: the six kinds of words exclude each other. -/
theorem unrecognizedWordsByClause : Obligations.UnrecognizedWordsByClause := by
  intro w
  rcases decode_cases w with ⟨hw, hd⟩ | ⟨hw, hd⟩ | ⟨hw, hd⟩ | ⟨rfl, hd⟩ | ⟨rfl, hd⟩ | ⟨f, ⟨hop, hfsel⟩, hd⟩
  · simp only [hd, Decoded.unrecognized.injEq, reduceCtorEq, true_iff, false_iff]
    omega
  · simp only [hd, Decoded.unrecognized.injEq, reduceCtorEq, true_iff, false_iff]
    omega
  · simp only [hd, Decoded.unrecognized.injEq, reduceCtorEq, true_iff, false_iff]
    omega
  · decide
  · decide
  · have hnumber : 1 ≤ f.field.number ∧ f.field.number ≤ 6 := by cases f <;> decide
    simp only [hd, reduceCtorEq, false_iff]
    omega

end Sys2Proof
end

section
/-! SUPPORT. The frame and its memory: canonical cells are what they read as, the lanes of `tx_data`, which fields and
bits a command and ENCODE leave, and the masks of a well-formed layout. -/

namespace Sys2Proof

/-! ### The masks of a layout -/

theorem Settable.field_ne {f g : Settable} (h : f ≠ g) : f.field ≠ g.field := by
  revert h
  cases f <;> cases g <;> decide

/-- Fields whose bit sets are apart have masks that are. -/
theorem Layout.mask_and_mask (L : Layout) {f g : Field}
    (h : L.shiftOf f + f.width ≤ L.shiftOf g ∨ L.shiftOf g + g.width ≤ L.shiftOf f) : L.mask f &&& L.mask g = 0 := by
  apply BitVec.eq_of_getLsbD_eq
  intro i hi
  have hzero : (0 : Byte).getLsbD i = false := BitVec.getLsbD_zero
  rw [BitVec.getLsbD_and, Layout.getLsbD_mask, Layout.getLsbD_mask, hzero, Bool.eq_false_iff]
  simp only [ne_eq, Bool.and_eq_true, decide_eq_true_eq]
  omega

/-- The checksum occupies the whole of byte 0 (10_state.md rule R11). -/
theorem Layout.reservedBits_zero (L : Layout) : L.reservedBits 0 = 0 := by
  have hmask : L.mask .chk = BitVec.allOnes 8 := by
    have hshift : L.shiftOf .chk = 0 := rfl
    rw [Layout.mask, hshift]
    decide
  have hapart := L.reservedBits_and_mask .chk
  rwa [hmask, BitVec.and_allOnes] at hapart

/-- Inserting into a field what it holds leaves the byte. -/
theorem Layout.insert_extract (L : Layout) (f : Field) (old : Byte) :
    (old &&& ~~~ L.mask f) ||| ((((old >>> L.shiftOf f) &&& f.lowMask) <<< L.shiftOf f) &&& L.mask f) = old := by
  apply BitVec.eq_of_getLsbD_eq
  intro i hi
  simp only [BitVec.getLsbD_and, BitVec.getLsbD_or, BitVec.getLsbD_ushiftRight, BitVec.getLsbD_not,
    BitVec.getLsbD_shiftLeft, Layout.getLsbD_mask, Field.getLsbD_lowMask]
  by_cases hin : L.shiftOf f ≤ i ∧ i < L.shiftOf f + f.width
  · obtain ⟨hlow, hhigh⟩ := hin
    have hback : L.shiftOf f + (i - L.shiftOf f) = i := by omega
    have hwidth : i - L.shiftOf f < f.width := by omega
    have hbyte : i - L.shiftOf f < 8 := by omega
    simp [hi, hlow, hhigh, hback, hwidth, hbyte, Nat.not_lt.mpr hlow]
  · have hout : (decide (L.shiftOf f ≤ i) && decide (i < L.shiftOf f + f.width)) = false := by
      rw [Bool.eq_false_iff]
      simpa only [ne_eq, Bool.and_eq_true, decide_eq_true_eq] using hin
    simp [hi, hout]

end Sys2Proof

namespace Sys2Proof.Machine

/-! ### Canonical memory -/

theorem Memory.read_of_notMem {m : Memory} {a : Nat} (h : ∀ c ∈ m, c.1 ≠ a) : m.read a = unlistedByte := by
  induction m with
  | nil => rfl
  | cons c m ih =>
    obtain ⟨hc, hm⟩ := List.forall_mem_cons.mp h
    rw [Memory.read_cons, if_neg hc, ih hm]

/-- The parts of the canonical form. -/
theorem Memory.wf_iff (m : Memory) :
    m.wf = true ↔ (m.map Prod.fst).Pairwise (· < ·) ∧ ∀ c ∈ m, c.1 < 8 ∧ c.2 ≠ unlistedByte := by
  simp [Memory.wf, Memory.rising_iff]

/-- A rising list reads each of its cells. -/
theorem Memory.read_of_mem {m : Memory} (h : (m.map Prod.fst).Pairwise (· < ·)) {c : Host.Cell} (hc : c ∈ m) :
    m.read c.1 = c.2 := by
  induction m with
  | nil => exact absurd hc List.not_mem_nil
  | cons d m ih =>
    rw [List.map_cons, List.pairwise_cons] at h
    obtain ⟨hd, hm⟩ := h
    rw [Memory.read_cons]
    rcases List.mem_cons.mp hc with rfl | hc
    · rw [if_pos rfl]
    · have hlt : d.1 < c.1 := hd c.1 (List.mem_map_of_mem hc)
      rw [if_neg hlt.ne, ih hm hc]

/-- The cells of a canonical memory are the addresses that do not read as unlisted, with what they read. -/
theorem Memory.mem_iff_read {m : Memory} (h : m.wf = true) (c : Host.Cell) :
    c ∈ m ↔ c.1 < 8 ∧ c.2 ≠ unlistedByte ∧ m.read c.1 = c.2 := by
  obtain ⟨hrising, hcells⟩ := m.wf_iff.mp h
  constructor
  · intro hc
    obtain ⟨hlt, hne⟩ := hcells c hc
    exact ⟨hlt, hne, Memory.read_of_mem hrising hc⟩
  · rintro ⟨-, hne, hread⟩
    by_contra hnot
    refine hne (hread.symm.trans (Memory.read_of_notMem fun d hd hda => hnot ?_))
    have hsnd : d.2 = c.2 := (Memory.read_of_mem hrising hd).symm.trans (hda ▸ hread)
    exact Prod.ext hda hsnd ▸ hd

/-- Rising lists with the same cells are one list. -/
theorem Memory.eq_of_mem_iff {m n : Memory} (hm : (m.map Prod.fst).Pairwise (· < ·))
    (hn : (n.map Prod.fst).Pairwise (· < ·)) (h : ∀ c, c ∈ m ↔ c ∈ n) : m = n := by
  have hirrefl : Std.Irrefl fun c d : Host.Cell => c.1 < d.1 := ⟨fun c => lt_irrefl c.1⟩
  have hantisymm : Std.Antisymm fun c d : Host.Cell => c.1 < d.1 := ⟨fun _ _ hcd hdc => absurd hdc hcd.not_gt⟩
  exact List.Pairwise.eq_of_mem_iff (List.pairwise_map.mp hm) (List.pairwise_map.mp hn) h

/-! ### The lanes of `tx_data` -/

/-- Bit `j` of lane `i` is bit `j` of byte `i` (30_encoding.md rule R57). -/
theorem getLsbD_txData (bytes : List Byte) (i : Nat) {j : Nat} (hj : j < 8) (h : 8 * i + j < 64) :
    (txData bytes).getLsbD (8 * i + j) = (bytes.getD i 0).getLsbD j := by
  induction bytes generalizing i with
  | nil => simp [txData]
  | cons b rest ih =>
    rw [txData, BitVec.getLsbD_or, BitVec.getLsbD_setWidth, BitVec.getLsbD_shiftLeft]
    cases i with
    | zero => simp [hj, show j < 64 by omega]
    | succ i =>
      have hlane : 8 * (i + 1) + j - 8 = 8 * i + j := by omega
      have hhigh : b.getLsbD (8 * (i + 1) + j) = false := BitVec.getLsbD_of_ge _ _ (by omega)
      have hnot : ¬ 8 * (i + 1) + j < 8 := by omega
      rw [hlane, ih i (by omega), hhigh]
      simp [h, hnot]

theorem State.getD_frameBytes (s : State) (a : FrameAddr) : s.frameBytes.getD a.val 0 = s.memRead a := by
  fin_cases a <;> rfl

/-! ### What `PUTF` and a command leave -/

/-- An in-domain `PUTF` keeps every field in its domain (41_frame_model.md rule R85). -/
theorem State.getF_putF_le (s : State) (f : Settable) {v : Nat} (hL : s.cfg.layout.wellFormed = true)
    (hv : v ≤ f.maxVal) (g : Settable) (h : (s.getF g.field).toNat ≤ g.maxVal) :
    ((s.putF f v).getF g.field).toNat ≤ g.maxVal := by
  by_cases hgf : g = f
  · subst hgf
    rw [s.getF_putF_same g v hL, Settable.and_lowMask g v hv, BitVec.toNat_ofNat]
    exact (Nat.mod_le _ _).trans hv
  · rwa [s.getF_putF_other f v hL (Settable.field_ne hgf)]

/-- The frames that serving a command can leave (`exec_cases`): the same one, or one in-domain field write. -/
def State.FieldWrite (s : State) (m : Memory) : Prop :=
  m = s.frame ∨ ∃ f v, v ≤ f.maxVal ∧ m = (s.putF f v).frame

section
variable {s t : State} (hc : t.cfg = s.cfg) (hw : s.FieldWrite t.frame)
include hc hw

theorem State.FieldWrite.cases :
    (∀ a : FrameAddr, t.memRead a = s.memRead a) ∧ (∀ g : Field, t.getF g = s.getF g)
      ∨ ∃ f v, v ≤ f.maxVal ∧ (∀ a : FrameAddr, t.memRead a = (s.putF f v).memRead a)
          ∧ ∀ g : Field, t.getF g = (s.putF f v).getF g := by
  rcases hw with hm | ⟨f, v, hv, hm⟩
  · exact .inl ⟨State.memRead_congr hm, State.getF_congr hc (State.memRead_congr hm)⟩
  · exact .inr ⟨f, v, hv, State.memRead_congr hm, State.getF_congr hc (State.memRead_congr hm)⟩

theorem State.FieldWrite.getF_chk (hL : s.cfg.layout.wellFormed = true) : t.getF .chk = s.getF .chk := by
  rcases State.FieldWrite.cases hc hw with ⟨-, hget⟩ | ⟨f, v, -, -, hget⟩
  · exact hget .chk
  · rw [hget, s.getF_putF_other f v hL f.chk_ne_field]

theorem State.FieldWrite.memRead_reserved (a : FrameAddr) :
    t.memRead a &&& s.cfg.layout.reservedBits a = s.memRead a &&& s.cfg.layout.reservedBits a := by
  rcases State.FieldWrite.cases hc hw with ⟨hread, -⟩ | ⟨f, v, -, hread, -⟩
  · rw [hread]
  · rw [hread, s.memRead_putF_reserved f v]

theorem State.FieldWrite.fieldsInDomain (hL : s.cfg.layout.wellFormed = true) (h : s.fieldsInDomain = true) :
    t.fieldsInDomain = true := by
  rw [State.fieldsInDomain_iff] at h ⊢
  intro g
  rcases State.FieldWrite.cases hc hw with ⟨-, hget⟩ | ⟨f, v, hv, -, hget⟩
  · rw [hget]
    exact h g
  · rw [hget]
    exact s.getF_putF_le f hL hv g (h g)

theorem State.FieldWrite.reservedZero (h : s.reservedZero = true) : t.reservedZero = true := by
  rw [State.reservedZero_iff] at h ⊢
  intro a
  rw [hc, State.FieldWrite.memRead_reserved hc hw, h a]

end

theorem State.FieldWrite.wf {s : State} {m : Memory} (hw : s.FieldWrite m) (h : s.frame.wf = true) : m.wf = true := by
  rcases hw with rfl | ⟨f, v, -, rfl⟩
  · exact h
  · exact Memory.wf_write _ _ _

/-- `PUTF` of a field with its own value leaves the frame (41_frame_model.md section 5). -/
theorem State.memRead_putF_getF (s : State) (f : Settable) (a : FrameAddr) :
    (s.putF f (s.getF f.field).toNat).memRead a = s.memRead a := by
  by_cases ha : a = s.cfg.layout.byteOf f.field
  · rw [ha, State.memRead_putF_same, BitVec.ofNat_toNat, BitVec.setWidth_eq, State.getF]
    exact Layout.insert_extract _ _ _
  · exact s.memRead_putF_other f _ ha

/-! ### What `SET_CTR` writes -/

/-- Byte 1 after the counter has been set: no layout moves the counter, so no condition on it. -/
theorem State.memRead_setF_ctr_one (s : State) {v : Nat} (hv : v ≤ 15) :
    (s.setF .ctr v).memRead 1 = (s.memRead 1 &&& 0xF0#8) ||| BitVec.ofNat 8 v := by
  have hput := s.memRead_putF_same .ctr v
  have hlow : BitVec.ofNat 8 v &&& 0x0F#8 = BitVec.ofNat 8 v := Settable.and_lowMask .ctr v hv
  rw [Settable.field, Layout.byteOf_ctr, Layout.shiftOf_ctr, Layout.mask_ctr, BitVec.shiftLeft_zero, hlow] at hput
  rw [s.setF_accepted .ctr v hv]
  exact hput

theorem State.memRead_setF_ctr_other (s : State) {v : Nat} (hv : v ≤ 15) {a : FrameAddr} (ha : a ≠ 1) :
    (s.setF .ctr v).memRead a = s.memRead a := by
  rw [s.setF_accepted .ctr v hv]
  exact s.memRead_putF_other .ctr v ha

theorem State.getF_setF_ctr (s : State) {v : Nat} (hv : v ≤ 15) : (s.setF .ctr v).getF .ctr = BitVec.ofNat 8 v := by
  have hlow : BitVec.ofNat 8 v &&& 0x0F#8 = BitVec.ofNat 8 v := Settable.and_lowMask .ctr v hv
  have hhigh : 0xF0#8 &&& 0x0F#8 = 0#8 := by decide
  rw [State.getF_ctr, s.memRead_setF_ctr_one hv, BitVec.and_or_distrib_right, BitVec.and_assoc, hhigh, hlow,
    BitVec.and_zero, BitVec.zero_or]

/-! ### What ENCODE leaves -/

/-- Every byte but byte 0 after ENCODE is the counter step's. -/
theorem State.memRead_encodeFrame_ne_zero (s : State) {a : FrameAddr} (ha : a ≠ 0) :
    s.encodeFrame.memRead a = s.ctrAdv.memRead a :=
  s.ctrAdv.memRead_xorsum_other ha

/-- ENCODE gives every settable field the value the counter step gives it. -/
theorem State.getF_encodeFrame (s : State) (f : Settable) (hL : s.cfg.layout.wellFormed = true) :
    s.encodeFrame.getF f.field = s.ctrAdv.getF f.field := by
  have hbyte := (Layout.fits_of_wellFormed hL f).1
  rw [State.getF, State.getF, State.encodeFrame_cfg, State.ctrAdv_cfg, s.memRead_encodeFrame_ne_zero hbyte]

theorem State.getF_encodeFrame_other (s : State) (hL : s.cfg.layout.wellFormed = true) {g : Field} (hctr : g ≠ .ctr)
    (hchk : g ≠ .chk) : s.encodeFrame.getF g = s.getF g := by
  obtain ⟨f, rfl⟩ : ∃ f : Settable, f.field = g := by
    cases g with
    | ctr => exact absurd rfl hctr
    | warn => exact ⟨.warn, rfl⟩
    | prefill => exact ⟨.prefill, rfl⟩
    | decel => exact ⟨.decel, rfl⟩
    | decelNv => exact ⟨.decelNv, rfl⟩
    | drvbrk => exact ⟨.drvbrk, rfl⟩
    | chk => exact absurd rfl hchk
  rw [s.getF_encodeFrame f hL, State.ctrAdv, s.getF_putF_other .ctr _ hL hctr]

/-- ENCODE advances the counter by one modulo 16, whatever the layout. -/
theorem State.toNat_getF_encodeFrame_ctr (s : State) :
    (s.encodeFrame.getF .ctr).toNat = ((s.getF .ctr).toNat + 1) % 16 := by
  rw [State.getF_ctr, s.memRead_encodeFrame_one, ← State.getF_ctr, s.toNat_getF_ctrAdv]

theorem State.memRead_encodeFrame_reserved (s : State) (a : FrameAddr) :
    s.encodeFrame.memRead a &&& s.cfg.layout.reservedBits a = s.memRead a &&& s.cfg.layout.reservedBits a := by
  by_cases ha : a = 0
  · rw [ha, Layout.reservedBits_zero]
    simp
  · rw [s.memRead_encodeFrame_ne_zero ha, State.ctrAdv, s.memRead_putF_reserved .ctr]

theorem State.xorOfBytes_xorsum (s : State) : s.xorsum.xorOfBytes = s.xorOfBytes := by
  simp [State.xorOfBytes, State.memRead_xorsum_other]

/-- The checksum step makes every frame well-formed (42_frame_codec.md rule R95). -/
theorem State.encodeFrame_frameWellFormed (s : State) : s.encodeFrame.frameWellFormed := by
  rw [State.frameWellFormed, State.encodeFrame_eq, State.memRead_xorsum_zero, State.xorOfBytes_xorsum]

theorem State.xorAll_frameBytes (s : State) : xorAll s.frameBytes = s.memRead 0 ^^^ s.xorOfBytes := by
  simp [xorAll, State.xorOfBytes, BitVec.xor_assoc]

theorem State.xorAll_of_frameWellFormed {s : State} (h : s.frameWellFormed) : xorAll s.frameBytes = 0 := by
  rw [s.xorAll_frameBytes, h]
  exact BitVec.xor_self

/-! ### Setters between the ENCODE calls -/

theorem setMany_cfg (run : List (Settable × Nat)) (s : State) : (setMany run s).cfg = s.cfg := by
  induction run generalizing s with
  | nil => rfl
  | cons p run ih => exact (ih _).trans (s.setF_cfg p.1 p.2)

theorem getF_ctr_setMany (run : List (Settable × Nat)) (s : State) (hL : s.cfg.layout.wellFormed = true)
    (h : ∀ p ∈ run, p.1 ≠ .ctr) : (setMany run s).getF .ctr = s.getF .ctr := by
  induction run generalizing s with
  | nil => rfl
  | cons p run ih =>
    obtain ⟨hp, hrun⟩ := List.forall_mem_cons.mp h
    have hset : (s.setF p.1 p.2).getF .ctr = s.getF .ctr :=
      (OnlyFieldBits.setF s p.1 p.2 hL).getF_other (Settable.field_ne hp).symm
    exact (ih _ (by rwa [State.setF_cfg]) hrun).trans hset

end Sys2Proof.Machine
end

section
/-! SUPPORT. The statements on the frame, its masks, its memory, the commands that write it, and ENCODE settled. -/

namespace Sys2Proof.Machine

/-- Settles O9: `SET_CTR` is `SETF` of the counter, which no layout moves, so its bytes are known for every layout. -/
theorem setCtrSetsTheRollingCounter : Obligations.SetCtrSetsTheRollingCounter := by
  refine ⟨fun s v hL => setCommand_command .ctr s v hL, fun s v hv => goesTo_exec_command .ctr ⟨?byte, ?others, ?next⟩,
    fun s h => goesTo_exec_command .ctr ⟨?_, s.out_setF_accepted .ctr 7 (by decide)⟩⟩
  case byte => exact s.memRead_setF_ctr_one hv
  case others => exact fun _ ha => s.memRead_setF_ctr_other hv ha
  case next =>
    apply BitVec.eq_of_toNat_eq
    rw [State.toNat_getF_encodeFrame_ctr, s.getF_setF_ctr hv, BitVec.toNat_ofNat, BitVec.toNat_ofNat]
    omega
  · rw [s.memRead_setF_ctr_one (by decide), h]
    decide

/-- Settles O11: serving a word writes at most one field within its domain, and emits one record. -/
theorem hostCannotReachBeyondTheFields : Obligations.HostCannotReachBeyondTheFields := by
  intro w s t hL ht
  obtain ⟨m, r, hserve, hm⟩ := serve_cases w s
  obtain rfl := Host.Outcome.next.inj (hserve.symm.trans ht)
  have hw : s.FieldWrite m := hm
  exact ⟨State.FieldWrite.getF_chk rfl hw hL, State.FieldWrite.memRead_reserved rfl hw,
    State.FieldWrite.fieldsInDomain rfl hw hL, rfl, rfl, rfl, rfl, rfl, rfl, rfl, rfl, rfl, rfl, rfl, rfl, r, rfl⟩

/-- Settles O14: `PUTF` and `SETF` change at most the bits of their field. -/
theorem fieldsAreIsolated : Obligations.FieldsAreIsolated := by
  intro s f v hL
  obtain ⟨-, -, hput, hputReserved⟩ := OnlyFieldBits.putF s f v hL
  obtain ⟨-, -, hset, hsetReserved⟩ := OnlyFieldBits.setF s f v hL
  exact ⟨fun g hg => ⟨hput g hg, hset g hg⟩, fun a => ⟨hputReserved a, hsetReserved a⟩⟩

/-- Settles O15: a reachable state's fields are in their domains, so each field's own value is accepted, and `PUTF` of
it inserts the bits that were extracted. -/
theorem fieldValuesRoundTrip : Obligations.FieldValuesRoundTrip := by
  intro s f hL
  refine ⟨fun v hv => s.getF_setF_accepted f v hL hv, fun hs => ?_⟩
  obtain ⟨hdom, -⟩ := s.atTickBoundary_iff.mp hs
  have hown : (s.getF f.field).toNat ≤ f.maxVal := s.fieldsInDomain_iff.mp hdom f
  refine ⟨s.out_setF_accepted f _ hown, fun a => ?_⟩
  rw [s.setF_accepted f _ hown, State.memRead_emitCon, State.memRead_putF_getF]

/-- Settles O17: the layout check says that the bit sets are apart, and masks are bit sets. -/
theorem masksOfWellFormedLayoutsAreDisjoint : Obligations.MasksOfWellFormedLayoutsAreDisjoint := by
  refine ⟨fun L hL => ?_, by decide⟩
  have hdisjoint : ∀ f g : Field, f ≠ g → L.byteOf f = L.byteOf g → L.mask f &&& L.mask g = 0 :=
    fun f g hne hb => L.mask_and_mask (Layout.apart_of_wellFormed hL hne hb)
  refine ⟨hdisjoint, Layout.fits_of_wellFormed hL, fun f hne hb => ?_⟩
  rw [← Layout.mask_ctr L]
  exact hdisjoint f .ctr hne hb

/-- Settles O21: the counter step writes the counter alone, and the checksum step the byte that is all checksum. -/
theorem encodeLeavesTheOtherFields : Obligations.EncodeLeavesTheOtherFields :=
  fun s hL => ⟨fun _ hctr hchk => s.getF_encodeFrame_other hL hctr hchk, s.memRead_encodeFrame_reserved⟩

/-- Settles O22: byte 0 is written with the XOR of the others, last. -/
theorem encodedFramesAreWellFormed : Obligations.EncodedFramesAreWellFormed :=
  fun s => ⟨s.encodeFrame_frameWellFormed, State.xorAll_of_frameWellFormed s.encodeFrame_frameWellFormed⟩

/-- Settles O23, by induction on the runs: setters of other fields keep the counter, ENCODE advances it. -/
theorem counterCyclesUnderInterleavedSetters : Obligations.CounterCyclesUnderInterleavedSetters := by
  intro runs
  induction runs with
  | nil =>
    intro s _ _
    have hlt : (s.getF .ctr).toNat < 2 ^ 4 := s.getF_toNat_lt .ctr
    exact (Nat.mod_eq_of_lt hlt).symm
  | cons run runs ih =>
    intro s hL h
    obtain ⟨hrun, hruns⟩ := List.forall_mem_cons.mp h
    have hnext := ih (setMany run s).encodeFrame (by rwa [State.encodeFrame_cfg, setMany_cfg]) hruns
    rw [State.toNat_getF_encodeFrame_ctr, getF_ctr_setMany run s hL hrun] at hnext
    rw [encodeInterleaved, hnext, List.length_cons]
    omega

/-- Settles O52: both lists rise strictly and have the cells that their reads name, so they are one list. -/
theorem canonicalMemoryIsDeterminedByItsReads : Obligations.CanonicalMemoryIsDeterminedByItsReads := by
  intro m n hm hn hread
  obtain ⟨hmRising, -⟩ := m.wf_iff.mp hm
  obtain ⟨hnRising, -⟩ := n.wf_iff.mp hn
  have hcells : ∀ c, c ∈ m ↔ c ∈ n := by
    intro c
    rw [Memory.mem_iff_read hm, Memory.mem_iff_read hn]
    refine and_congr_right fun hlt => ?_
    rw [hread ⟨c.1, hlt⟩]
  exact Memory.eq_of_mem_iff hmRising hnRising hcells

/-- Settles O53: bit by bit, lane by lane. -/
theorem txDataLanesCarryTheBytes : Obligations.TxDataLanesCarryTheBytes := by
  intro s a
  apply BitVec.eq_of_getLsbD_eq
  intro j hj
  have hlane : 8 * a.val + j < 64 := by omega
  rw [BitVec.getLsbD_extractLsb', decide_eq_true hj, Bool.true_and, getLsbD_txData _ _ hj hlane, s.getD_frameBytes]

end Sys2Proof.Machine
end

section
/-! SUPPORT. Ticks, 43_scheduler.md section 3 and 44_supervisor.md: the due test in abstract time, the outputs of
phase (a), what a tick that does not restart leaves, and what no tick touches. -/

namespace Sys2Proof.Machine

theorem goesTo_of_eq_next {o : Host.Outcome State Fault Refusal} {u : State} {P : State → Prop} (h : o = .next u)
    (hP : P u) : GoesTo o P :=
  ⟨u, h, hP⟩

/-! ### The due test in abstract time -/

theorem State.isDue_congr {s t : State} (hc : t.cfg = s.cfg) (hl : t.lastSend = s.lastSend) (now : TimeReg) :
    t.isDue now = s.isDue now := by
  rw [State.isDue, State.elapsed, hc, hl, State.isDue, State.elapsed]

@[simp] theorem State.isDue_presented (s : State) (now : TimeReg) : s.presented.isDue now = s.isDue now :=
  State.isDue_congr s.presented_cfg s.presented_lastSend now

/-- Across one wrap of the time register, the difference of two readings is the time between them. -/
theorem toNat_timeReg_sub {t1 t : Nat} (hle : t1 ≤ t) (hlt : t - t1 < 2 ^ 32) :
    (timeReg t - timeReg t1).toNat = t - t1 := by
  rw [timeReg, timeReg, BitVec.toNat_sub, BitVec.toNat_ofNat, BitVec.toNat_ofNat]
  omega

theorem State.isDue_timeReg_iff (s : State) {t1 t : Nat} (hl : s.lastSend = timeReg t1) (hle : t1 ≤ t)
    (hlt : t - t1 < 2 ^ 32) : s.isDue (timeReg t) = true ↔ t1 + s.cfg.period ≤ t := by
  rw [State.isDue_iff, hl, toNat_timeReg_sub hle hlt]
  omega

/-! ### Phase (a): its outputs and when it does not end Faulted -/

/-- From an empty output list, phase (a) emits at most one transmit request and after it at most one failure report,
and it ends Faulted only with a request emitted. -/
theorem State.schedulerPhase_outputs (s : State) (now : TimeReg) (ok : Bool) (hout : s.out = [])
    (hs : s.sched ≠ .faulted) :
    ∃ sent failed : List Output,
      (sent = [] ∨ sent = [s.encodeFrame.txRequest])
        ∧ (failed = [] ∨ (sent ≠ [] ∧ s.cfg.consoleEn = true ∧ ∃ n, failed = [.con (.txFailed n)]))
        ∧ (s.schedulerPhase now ok).out = sent ++ failed
        ∧ ((s.schedulerPhase now ok).sched = .faulted → sent ≠ []) := by
  rcases s.schedulerPhase_cases now ok with ⟨-, hquiet⟩ | ⟨-, -, hsent⟩ | ⟨-, -, hfailed⟩
  · exact ⟨[], [], .inl rfl, .inl rfl, by rw [hquiet, hout]; rfl, fun h => absurd (hquiet ▸ h) hs⟩
  · refine ⟨[s.encodeFrame.txRequest], [], .inr rfl, .inl rfl, ?_, fun _ => List.cons_ne_nil _ _⟩
    rw [hsent, hout]
    rfl
  · refine ⟨[s.encodeFrame.txRequest], if s.cfg.consoleEn then [.con (.txFailed (s.failcnt + 1))] else [], .inr rfl, ?_,
      ?_, fun _ => List.cons_ne_nil _ _⟩
    · by_cases hen : s.cfg.consoleEn = true
      · exact .inr ⟨List.cons_ne_nil _ _, hen, _, if_pos hen⟩
      · exact .inl (if_neg hen)
    · rw [hfailed, hout]
      rfl

/-- Phase (a) does not end Faulted where a success is answered or one more failure stays below the threshold; and it
counts at most one failure. -/
theorem State.schedulerPhase_healthy (s : State) (now : TimeReg) (ok : Bool) (hs : s.sched ≠ .faulted)
    (hn : ok = false → s.failcnt.toNat + 1 < s.cfg.maxFail) (hmax : s.cfg.maxFail ≤ 255) :
    (s.schedulerPhase now ok).sched ≠ .faulted
      ∧ (s.schedulerPhase now ok).failcnt.toNat ≤ s.failcnt.toNat + 1 := by
  rcases s.schedulerPhase_cases now ok with ⟨-, hquiet⟩ | ⟨-, -, hsent⟩ | ⟨hdue, rfl, hfailed⟩
  · rw [hquiet]
    exact ⟨hs, Nat.le_succ _⟩
  · rw [hsent]
    exact ⟨Sched.noConfusion, Nat.zero_le _⟩
  · have hbelow := hn rfl
    refine ⟨fun hfaulted => ?_, ?_⟩
    · have := (s.schedulerPhase_faulted_iff hdue (by omega)).mp hfaulted
      omega
    · rw [hfailed]
      exact (s.toNat_failcnt_add_one (by omega)).le

/-! ### What a tick leaves -/

/-- Records show on the console port alone. -/
theorem State.views_of_records {u v : State} {before records after : List Output}
    (hu : u.outputs = before ++ records ++ after) (hv : v.outputs = before ++ after)
    (h : ∀ o ∈ records, ∃ r, o = .con r) :
    u.txPayloads = v.txPayloads ∧ u.restarts = v.restarts ∧ u.heartbeats = v.heartbeats := by
  refine ⟨?_, ?_, ?_⟩
  · rw [State.txPayloads, State.txPayloads, hu, hv, List.filterMap_append, List.filterMap_append,
      List.filterMap_append, (List.filterMap_eq_nil_iff (l := records)).mpr, List.append_nil]
    intro o ho
    obtain ⟨r, rfl⟩ := h o ho
    rfl
  · rw [State.restarts, State.restarts, hu, hv, List.filterMap_append, List.filterMap_append,
      List.filterMap_append, (List.filterMap_eq_nil_iff (l := records)).mpr, List.append_nil]
    intro o ho
    obtain ⟨r, rfl⟩ := h o ho
    rfl
  · have hnone : records.count .hb = 0 := by
      refine List.count_eq_zero.mpr fun hmem => ?_
      obtain ⟨r, hr⟩ := h _ hmem
      exact Output.noConfusion hr
    rw [State.heartbeats, State.heartbeats, hu, hv, List.count_append, List.count_append, List.count_append, hnone,
      Nat.add_zero]

/-- A tick that does not restart keeps what phase (a) recorded, and emits after phase (a) at most console records and
then the heartbeat. -/
theorem tick_of_healthy {s u : State} {t t0 : Nat} {cmd : Option CmdWord} {ok : Bool}
    (h : (s.schedulerPhase (timeReg t) ok).sched ≠ .faulted) (hu : tick t cmd ok t0 s = .next u) :
    u.failcnt = (s.schedulerPhase (timeReg t) ok).failcnt ∧ u.lastSend = (s.schedulerPhase (timeReg t) ok).lastSend
      ∧ u.time = t ∧ u.wdtFedAt = t ∧ u.resetOut = s.resetOut
      ∧ ∃ response : List Output, (∀ o ∈ response, s.cfg.consoleEn = true ∧ ∃ r, o = .con r)
          ∧ u.out = (s.schedulerPhase (timeReg t) ok).out ++ response ++ [.hb] := by
  obtain ⟨-, -, -, -, -, -, -, -, hresetOut⟩ := s.schedulerPhase_frame_rule (timeReg t) ok
  rcases tick_effect hu with ⟨hfaulted, -⟩ | ⟨-, m, response, rfl, hresponse, -⟩
  · exact absurd hfaulted h
  · refine ⟨rfl, rfl, rfl, rfl, hresetOut, response, fun o ho => ?_, rfl⟩
    rcases hresponse with rfl | ⟨hen, r, rfl⟩
    · exact absurd ho List.not_mem_nil
    · exact ⟨hen, r, List.mem_singleton.mp ho⟩

/-- A due attempt emits its transmit request, and the tick's other outputs follow it. -/
theorem tick_out_of_due {s u : State} {t t0 : Nat} {cmd : Option CmdWord} {ok : Bool}
    (hdue : s.isDue (timeReg t) = true) (hu : tick t cmd ok t0 s = .next u) :
    ∃ rest, u.out = s.out ++ s.encodeFrame.txRequest :: rest := by
  obtain ⟨more, -, hphaseA, -⟩ := s.schedulerPhase_out_of_due ok hdue
  rcases tick_effect hu with ⟨-, rfl⟩ | ⟨-, m, response, rfl, -⟩
  · exact ⟨more ++ [.restart .exhausted], by rw [State.forceRestart_out, hphaseA, List.append_assoc]; rfl⟩
  · exact ⟨more ++ response ++ [.hb], by simp [hphaseA]⟩

/-- No tick writes the configuration or the environment's draws (decision D25). -/
theorem tick_environment {s u : State} {t t0 : Nat} {cmd : Option CmdWord} {ok : Bool}
    (hu : tick t cmd ok t0 s = .next u) : u.cfg = s.cfg ∧ u.inputs = s.inputs ∧ u.draws = s.draws := by
  obtain ⟨hcfg, -, -, -, -, -, hinputs, hdraws, -⟩ := s.schedulerPhase_frame_rule (timeReg t) ok
  rcases tick_effect hu with ⟨-, rfl⟩ | ⟨-, m, response, rfl, -⟩ <;> exact ⟨hcfg, hinputs, hdraws⟩

/-- A tick ends at its own time, or at the start time of its restart. -/
theorem tick_time {s u : State} {t t0 : Nat} {cmd : Option CmdWord} {ok : Bool} (hu : tick t cmd ok t0 s = .next u) :
    u.time = t ∨ u.time = t0 := by
  rcases tick_effect hu with ⟨-, rfl⟩ | ⟨-, m, response, rfl, -⟩
  · exact .inr rfl
  · exact .inl rfl

/-- With a console and no restart, a tick that presents the word of an instruction executes it between phases (a)
and (c). -/
theorem tick_of_instr {s : State} {t : Nat} {w : CmdWord} {i : Instr} {ok : Bool} (hen : s.cfg.consoleEn = true)
    (hw : decode w = .instr i) (h : (s.schedulerPhase (timeReg t) ok).sched ≠ .faulted) (t0 : Nat) :
    tick t (some w) ok t0 s
      = andThen (exec i { s.schedulerPhase (timeReg t) ok with phase := .b }) fun b =>
          { b with phase := .c }.supervisorPhase t := by
  obtain ⟨hcfg, -⟩ := s.schedulerPhase_frame_rule (timeReg t) ok
  have hconsole : consolePhase (some w) { s.schedulerPhase (timeReg t) ok with phase := .b }
      = exec i { s.schedulerPhase (timeReg t) ok with phase := .b } :=
    (if_pos (hcfg ▸ hen)).trans (serve_of_instr hw _)
  rcases tick_cases t (some w) ok t0 s with ⟨hfaulted, -⟩ | ⟨-, hgoesOn⟩
  · exact absurd hfaulted h
  · rw [hgoesOn, hconsole]

/-- What a command adds to its tick shows neither on the transmit port nor on the restart output nor at the watchdog. -/
theorem tick_views_of_no_command {s u v : State} {t t0 : Nat} {cmd : Option CmdWord} {ok : Bool}
    (hu : tick t cmd ok t0 s = .next u) (hv : tick t none ok t0 s = .next v) :
    u.txPayloads = v.txPayloads ∧ u.restarts = v.restarts ∧ u.heartbeats = v.heartbeats ∧ u.failcnt = v.failcnt
      ∧ u.lastSend = v.lastSend := by
  by_cases h : (s.schedulerPhase (timeReg t) ok).sched = .faulted
  · rw [tick_of_ignored_command (.inr h) cmd none] at hu
    obtain rfl := Host.Outcome.next.inj (hu.symm.trans hv)
    exact ⟨rfl, rfl, rfl, rfl, rfl⟩
  · obtain ⟨hfailcnt, hlast, -, -, hreset, response, hresponse, hout⟩ := tick_of_healthy h hu
    obtain ⟨hfailcnt', hlast', -, -, hreset', -⟩ := tick_of_healthy h hv
    have hv' := Host.Outcome.next.inj (hv.symm.trans (tick_without_command h t0))
    have houtputs : u.outputs = (s.schedulerPhase (timeReg t) ok).out ++ response ++ .hb :: s.resetOut := by
      simp [State.outputs, hout, hreset]
    have houtputs' : v.outputs = (s.schedulerPhase (timeReg t) ok).out ++ .hb :: s.resetOut := by
      rw [State.outputs, hreset', hv', State.supervisorPhase_out, List.append_assoc]
      rfl
    obtain ⟨htx, hrestarts, hheartbeats⟩ := State.views_of_records houtputs houtputs' fun o ho => (hresponse o ho).2
    exact ⟨htx, hrestarts, hheartbeats, hfailcnt.trans hfailcnt'.symm, hlast.trans hlast'.symm⟩

end Sys2Proof.Machine
end


section
/-! SUPPORT. The statements of 43_scheduler.md and 45_console.md on single ticks settled. -/

namespace Sys2Proof.Machine

/-- Settles O26: one more failure stays below the threshold and the counter does not wrap, so phase (a) ends Idle and
the tick runs to its heartbeat. -/
theorem failureBelowThresholdIsCounted : Obligations.FailureBelowThresholdIsCounted := by
  intro s t t0 hdue hbelow hmax
  have hcount := s.toNat_failcnt_add_one (by omega)
  have hphaseA := s.schedulerPhase_of_failure hdue
  have hidle : (s.schedulerPhase (timeReg t) false).sched = .idle := by
    rw [hphaseA, hcount]
    exact if_neg (Nat.not_le.mpr hbelow)
  refine ⟨?_, hidle, ?_, fun cmd => ?_⟩
  · rw [hphaseA]
    exact hcount
  · rw [hphaseA]
  · obtain ⟨v, hv⟩ := tick_next t cmd false t0 s
    obtain ⟨hfailcnt, -, -, hfed, -, response, -, hout⟩ := tick_of_healthy (by rw [hidle]; decide) hv
    exact ⟨v, hv, hfailcnt, hfed, by rw [hout, List.getLast?_concat]⟩

/-- Settles O28: modulo `2^32`, the difference of the two times is exact. -/
theorem dueTestIsExactBelowTheWrap : Obligations.DueTestIsExactBelowTheWrap :=
  fun s _ _ hl hle hlt => s.isDue_timeReg_iff hl hle hlt

/-- Settles O29: the reset leaves `LAST_SEND` at `T(t0)` and a frame of zeros, whose encoding the example of ENCODE
gives. -/
theorem firstTransmissionAfterReset : Obligations.FirstTransmissionAfterReset := by
  intro s t0 t t1 hout _ hle hlt
  have hdue := (s.resetSequence t0).isDue_timeReg_iff rfl hle hlt
  rw [State.resetSequence_cfg] at hdue
  refine ⟨fun hearly => ?early, fun hlate => ?late⟩
  case early =>
    have hquiet := (s.resetSequence t0).schedulerPhase_of_not_due (now := timeReg t) true
      (Bool.eq_false_iff.mpr fun h => absurd (hdue.mp h) (by omega))
    refine goesTo_of_eq_next (tick_without_command (by rw [hquiet]; exact Sched.noConfusion) t1) ?_
    rw [State.supervisorPhase_out, hquiet, State.resetSequence_out, hout]
    rfl
  case late =>
    have hsent := (s.resetSequence t0).schedulerPhase_of_success (hdue.mpr hlate)
    obtain ⟨-, -, hexample⟩ := encodeDependsOnTheFrameAlone
    have hbytes := hexample (s.resetSequence t0) rfl
    refine goesTo_of_eq_next (tick_without_command (by rw [hsent]; exact Sched.noConfusion) t1) ?_
    rw [State.supervisorPhase_out, hsent, State.resetSequence_out, hout, State.txRequest, hbytes]
    rfl

/-- Settles O30: with `PERIOD` 0 every tick is due, and a due attempt's request is the tick's first output. -/
theorem zeroPeriodSendsEveryTick : Obligations.ZeroPeriodSendsEveryTick := by
  intro s t t0 cmd ok hperiod hout
  have hdue : s.isDue (timeReg t) = true := by
    rw [State.isDue_iff, hperiod]
    exact Nat.zero_le _
  obtain ⟨u, hu⟩ := tick_next t cmd ok t0 s
  obtain ⟨rest, hrest⟩ := tick_out_of_due hdue hu
  refine goesTo_of_eq_next hu ?_
  rw [hrest, hout]
  rfl

/-- Settles O31: phase (a) emits the request and the report, and then the tick restarts or serves and feeds. -/
theorem tickOutputsComeInOrder : Obligations.TickOutputsComeInOrder := by
  intro s u t t0 cmd ok hout hs hu
  obtain ⟨sent, failed, hsent, hfailed, hphaseA, hfaultedSent⟩ := s.schedulerPhase_outputs (timeReg t) ok hout hs
  rcases tick_effect hu with ⟨hfaulted, rfl⟩ | ⟨-, m, response, rfl, hresponse, -⟩
  · refine ⟨sent, failed, [], hsent, hfailed, .inl rfl, .inl ⟨hfaultedSent hfaulted, ?_⟩⟩
    rw [State.forceRestart_out, hphaseA]
  · exact ⟨sent, failed, response, hsent, hfailed, hresponse, .inr (by rw [hphaseA])⟩

/-- Settles O37: both ticks show what the tick without a command shows. -/
theorem commandCannotChangeItsOwnTicksFrame : Obligations.CommandCannotChangeItsOwnTicksFrame := by
  intro s u v t t0 cmd cmd' ok hu hv
  obtain ⟨w, hw⟩ := tick_next t none ok t0 s
  obtain ⟨htx, hrestarts, hheartbeats, hfailcnt, hlast⟩ := tick_views_of_no_command hu hw
  obtain ⟨htx', hrestarts', hheartbeats', hfailcnt', hlast'⟩ := tick_views_of_no_command hv hw
  exact ⟨htx.trans htx'.symm, hrestarts.trans hrestarts'.symm, hheartbeats.trans hheartbeats'.symm,
    hfailcnt.trans hfailcnt'.symm, hlast.trans hlast'.symm⟩

/-- Settles O49: without a console, phase (b) is empty whatever is presented. -/
theorem deployedBuildIgnoresTheCommandPort : Obligations.DeployedBuildIgnoresTheCommandPort :=
  fun _ _ t0 cmd _ hdeployed => tick_of_ignored_command (.inl hdeployed) cmd none t0

end Sys2Proof.Machine
end

section
/-! SUPPORT. The invariant of a run at its event boundaries, 10_state.md section 7: the reset sequence establishes it,
ENCODE, phase (a), a tick and a step keep it; the watchdog in a state that has it; what a step emits; and what a step
does not touch. -/

namespace Sys2Proof.Machine

/-! ### The reset sequence establishes the invariant -/

@[simp] theorem State.getF_resetSequence (s : State) (t0 : Nat) (f : Field) : (s.resetSequence t0).getF f = 0 := by
  rw [State.getF, State.memRead_resetSequence]
  simp

/-- The zero frame is well-formed (42_frame_codec.md rule R95). -/
theorem State.resetSequence_frameWellFormed (s : State) (t0 : Nat) : (s.resetSequence t0).frameWellFormed := by
  simp only [State.frameWellFormed, State.xorOfBytes, State.memRead_resetSequence]
  decide

theorem State.resetSequence_inv (s : State) (t0 : Nat) (hv : s.cfg.valid = true) : (s.resetSequence t0).Inv where
  valid := hv
  canonical := rfl
  boundary := by
    obtain ⟨-, hmax, -⟩ := Config.bounds_of_valid hv
    refine (State.atTickBoundary_iff _).mpr ⟨(State.fieldsInDomain_iff _).mpr fun f => ?_,
      (State.reservedZero_iff _).mpr fun a => ?_, hmax, rfl, rfl, rfl⟩
    · rw [State.getF_resetSequence]
      exact Nat.zero_le _
    · rw [State.memRead_resetSequence]
      exact BitVec.zero_and
  fed := rfl
  limit := rfl

theorem State.restart_inv (s : State) (c : Cause) (t0 : Nat) (hv : s.cfg.valid = true) : (s.restart c t0).Inv :=
  (s.emit (.restart c)).resetSequence_inv t0 hv

/-! ### ENCODE and phase (a) keep it -/

theorem State.fieldsInDomain_congr {s t : State} (hc : t.cfg = s.cfg) (hf : t.frame = s.frame) :
    t.fieldsInDomain = s.fieldsInDomain := by
  rw [State.fieldsInDomain, funext (State.getF_congr hc (State.memRead_congr hf)), State.fieldsInDomain]

theorem State.reservedZero_congr {s t : State} (hc : t.cfg = s.cfg) (hf : t.frame = s.frame) :
    t.reservedZero = s.reservedZero := by
  rw [State.reservedZero, hc, funext (State.memRead_congr hf), State.reservedZero]

/-- ENCODE keeps every field in its domain: the counter is computed modulo 16. -/
theorem State.encodeFrame_fieldsInDomain {s : State} (hL : s.cfg.layout.wellFormed = true)
    (h : s.fieldsInDomain = true) : s.encodeFrame.fieldsInDomain = true := by
  rw [State.fieldsInDomain_iff] at h ⊢
  intro f
  rw [s.getF_encodeFrame f hL, State.ctrAdv]
  exact s.getF_putF_le .ctr hL (Nat.lt_succ_iff.mp (Nat.mod_lt _ (by decide))) f (h f)

theorem State.encodeFrame_reservedZero {s : State} (h : s.reservedZero = true) : s.encodeFrame.reservedZero = true := by
  rw [State.reservedZero_iff] at h ⊢
  intro a
  rw [State.encodeFrame_cfg, s.memRead_encodeFrame_reserved, h a]

/-- Phase (a) leaves the frame, or the encoded frame. -/
theorem State.schedulerPhase_frame_cases (s : State) (now : TimeReg) (ok : Bool) :
    (s.schedulerPhase now ok).frame = s.frame ∨ (s.schedulerPhase now ok).frame = s.encodeFrame.frame := by
  rcases s.schedulerPhase_cases now ok with ⟨-, h⟩ | ⟨-, -, h⟩ | ⟨-, -, h⟩ <;> rw [h]
  · exact .inl rfl
  · exact .inr rfl
  · exact .inr rfl

/-- Where phase (a) does not end Faulted, it ends Idle with `FAILCNT` below the threshold. -/
theorem State.schedulerPhase_counts {s : State} {now : TimeReg} {ok : Bool} (hmax : 1 ≤ s.cfg.maxFail)
    (hs : s.sched = .idle) (hn : s.failcnt.toNat < s.cfg.maxFail) (h : (s.schedulerPhase now ok).sched ≠ .faulted) :
    (s.schedulerPhase now ok).sched = .idle ∧ (s.schedulerPhase now ok).failcnt.toNat < s.cfg.maxFail := by
  rcases s.schedulerPhase_cases now ok with ⟨-, hquiet⟩ | ⟨-, -, hsent⟩ | ⟨-, -, hfailed⟩
  · rw [hquiet]
    exact ⟨hs, hn⟩
  · rw [hsent]
    exact ⟨rfl, hmax⟩
  · rw [hfailed] at h ⊢
    by_cases hreached : s.cfg.maxFail ≤ (s.failcnt + 1).toNat
    · exact absurd (if_pos hreached) h
    · exact ⟨if_neg hreached, Nat.not_le.mp hreached⟩

/-- Phase (a) keeps the frame's part of the invariant. -/
theorem State.schedulerPhase_keeps_frame {s : State} (now : TimeReg) (ok : Bool)
    (hL : s.cfg.layout.wellFormed = true) (hwf : s.frame.wf = true) (hdom : s.fieldsInDomain = true)
    (hres : s.reservedZero = true) :
    (s.schedulerPhase now ok).frame.wf = true ∧ (s.schedulerPhase now ok).fieldsInDomain = true
      ∧ (s.schedulerPhase now ok).reservedZero = true := by
  obtain ⟨hcfg, -⟩ := s.schedulerPhase_frame_rule now ok
  rcases s.schedulerPhase_frame_cases now ok with hf | hf
  · rw [hf, State.fieldsInDomain_congr hcfg hf, State.reservedZero_congr hcfg hf]
    exact ⟨hwf, hdom, hres⟩
  · rw [hf, State.fieldsInDomain_congr (s := s.encodeFrame) hcfg hf,
      State.reservedZero_congr (s := s.encodeFrame) hcfg hf]
    exact ⟨Memory.wf_write _ _ _, State.encodeFrame_fieldsInDomain hL hdom, State.encodeFrame_reservedZero hres⟩

/-! ### A tick and a step keep it -/

theorem tick_keeps_inv {s u : State} {t t0 : Nat} {cmd : Option CmdWord} {ok : Bool} (hs : s.Inv)
    (hu : tick t cmd ok t0 s = .next u) : u.Inv := by
  obtain ⟨hcfg, -, -, harmed, hlimit, -⟩ := s.schedulerPhase_frame_rule (timeReg t) ok
  have hL := Config.layout_wellFormed hs.valid
  obtain ⟨-, hmax, -⟩ := Config.bounds_of_valid hs.valid
  obtain ⟨hdom, hres, hn, hidle, -, hwdt⟩ := s.atTickBoundary_iff.mp hs.boundary
  rcases tick_effect hu with ⟨-, rfl⟩ | ⟨hhealthy, m, response, rfl, -, hm⟩
  · exact State.restart_inv _ _ _ (hcfg ▸ hs.valid)
  · obtain ⟨hwfA, hdomA, hresA⟩ := State.schedulerPhase_keeps_frame (timeReg t) ok hL hs.canonical hdom hres
    obtain ⟨hidleA, hnA⟩ := State.schedulerPhase_counts hmax hidle hn hhealthy
    have hwrite : (s.schedulerPhase (timeReg t) ok).FieldWrite m := hm.imp_right fun ⟨_, hput⟩ => hput
    have hLA : (s.schedulerPhase (timeReg t) ok).cfg.layout.wellFormed = true := hcfg ▸ hL
    exact {
      valid := hcfg ▸ hs.valid
      canonical := State.FieldWrite.wf hwrite hwfA
      boundary := (State.atTickBoundary_iff _).mpr
        ⟨State.FieldWrite.fieldsInDomain (s := s.schedulerPhase (timeReg t) ok) rfl hwrite hLA hdomA,
          State.FieldWrite.reservedZero (s := s.schedulerPhase (timeReg t) ok) rfl hwrite hresA, hcfg ▸ hnA, hidleA,
          rfl, harmed.trans hwdt⟩
      fed := rfl
      limit := hlimit.trans (hcfg ▸ hs.limit) }

theorem State.presented_inv {s : State} (hs : s.Inv) : s.presented.Inv where
  valid := by rw [s.presented_cfg, hs.valid]
  canonical := by rw [s.presented_frame, hs.canonical]
  boundary := by rw [s.presented_atTickBoundary, hs.boundary]
  fed := by rw [s.presented_wdtFedAt, s.presented_time, hs.fed]
  limit := by rw [s.presented_wdtLimit, s.presented_cfg, hs.limit]

theorem State.Inv.presented_sched_ne_faulted {s : State} (hs : s.Inv) : s.presented.sched ≠ .faulted := by
  obtain ⟨-, -, -, hidle, -⟩ := s.atTickBoundary_iff.mp hs.boundary
  rw [s.presented_sched, hidle]
  exact Sched.noConfusion

theorem step_keeps_inv {s s' : State} (hs : s.Inv) (h : step s = .next s') : s'.Inv := by
  have hv : s.presented.cfg.valid = true := (State.presented_inv hs).valid
  obtain ⟨-, ⟨-, rfl⟩ | ⟨-, -, ⟨-, rfl⟩ | ⟨-, htick⟩⟩⟩ := step_cases h
  · exact State.resetSequence_inv _ _ hv
  · exact State.restart_inv _ _ _ hv
  · exact tick_keeps_inv (State.presented_inv hs) htick

/-- From a valid configuration, a step answers a next state where the draw is a power-on reset or the state is one of a
tick boundary. -/
theorem exists_step_eq_next {s : State} (hv : s.cfg.valid = true)
    (h : s.nextDraw.powerOn = true ∨ s.atTickBoundary = true) : ∃ s', step s = .next s' := by
  rcases Bool.eq_false_or_eq_true s.nextDraw.powerOn with hp | hp
  · exact ⟨_, step_of_powerOn s hv hp⟩
  · have hb : s.atTickBoundary = true := h.resolve_left (by simp [hp])
    rcases Bool.eq_false_or_eq_true (s.watchdogFires (s.time + s.nextDraw.gap) s.nextDraw.expireAtLimit) with hw | hw
    · exact ⟨_, step_of_expiry s hv hb hp hw⟩
    · obtain ⟨u, hu⟩ := tick_next (s.time + s.nextDraw.gap) s.nextDraw.cmd s.nextDraw.txOk
        (s.time + s.nextDraw.gap + s.nextDraw.latency) s.presented
      exact ⟨u, (step_of_tick s hv hb hp hw).trans hu⟩

/-- In a valid configuration the one refusal is that of an unreachable state. -/
theorem step_next_or_unreachable {s : State} (hv : s.cfg.valid = true) :
    (∃ s', step s = .next s')
      ∨ (s.nextDraw.powerOn = false ∧ s.atTickBoundary = false ∧ step s = .refused .unreachableState) := by
  by_cases h : s.nextDraw.powerOn = true ∨ s.atTickBoundary = true
  · exact .inl (exists_step_eq_next hv h)
  · obtain ⟨hp, hb⟩ := not_or.mp h
    rw [Bool.not_eq_true] at hp hb
    exact .inr ⟨hp, hb, step_of_unreachable s hv hb hp⟩

theorem step_time_le {s s' : State} (h : step s = .next s') : s.time ≤ s'.time := by
  obtain ⟨-, ⟨-, rfl⟩ | ⟨-, -, ⟨-, rfl⟩ | ⟨-, htick⟩⟩⟩ := step_cases h
  · exact Nat.le_add_right _ _
  · exact (Nat.le_add_right _ _).trans (Nat.le_add_right _ _)
  · rcases tick_time htick with htime | htime <;> omega

/-- No event writes the configuration, and each takes its one draw. -/
theorem step_environment {s s' : State} (h : step s = .next s') :
    s'.cfg = s.cfg ∧ s'.inputs = s.drawTaken.inputs ∧ s'.draws = s.drawTaken.draws := by
  obtain ⟨-, ⟨-, rfl⟩ | ⟨-, -, ⟨-, rfl⟩ | ⟨-, htick⟩⟩⟩ := step_cases h
  · exact ⟨s.presented_cfg, rfl, rfl⟩
  · exact ⟨s.presented_cfg, rfl, rfl⟩
  · obtain ⟨hcfg, hinputs, hdraws⟩ := tick_environment htick
    exact ⟨hcfg.trans s.presented_cfg, hinputs, hdraws⟩

/-! ### The next event of a draw -/

theorem State.nextEvent_cases (s : State) (d : EnvDraw) :
    (d.powerOn = true ∧ s.nextEvent d = .reset (s.time + d.gap))
      ∨ (d.powerOn = false ∧ s.watchdogFires (s.time + d.gap) d.expireAtLimit = true
          ∧ s.nextEvent d = .wdtExpire (s.time + d.gap) (s.time + d.gap + d.latency))
      ∨ (d.powerOn = false ∧ s.watchdogFires (s.time + d.gap) d.expireAtLimit = false
          ∧ s.nextEvent d = .tick (s.time + d.gap) d.cmd d.txOk (s.time + d.gap + d.latency)) := by
  rcases Bool.eq_false_or_eq_true d.powerOn with hp | hp
  · exact .inl ⟨hp, by simp [State.nextEvent, hp]⟩
  · rcases Bool.eq_false_or_eq_true (s.watchdogFires (s.time + d.gap) d.expireAtLimit) with hw | hw
    · exact .inr (.inl ⟨hp, hw, by simp [State.nextEvent, hp, hw]⟩)
    · exact .inr (.inr ⟨hp, hw, by simp [State.nextEvent, hp, hw]⟩)

/-! ### The watchdog at an event boundary -/

/-- In a state of a run the watchdog was fed at the previous event, with the configured timeout. -/
theorem State.Inv.watchdogFires_iff {s : State} (hs : s.Inv) (gap : Nat) (e : Bool) :
    s.watchdogFires (s.time + gap) e = true ↔ s.cfg.wdtTimeout < gap ∨ (gap = s.cfg.wdtTimeout ∧ e = true) := by
  obtain ⟨-, -, -, -, -, harmed⟩ := s.atTickBoundary_iff.mp hs.boundary
  obtain ⟨-, -, -, -, hwidth⟩ := Config.bounds_of_valid hs.valid
  have hlimit : s.wdtLimit.toNat = s.cfg.wdtTimeout := by
    rw [hs.limit, BitVec.toNat_ofNat, Nat.mod_eq_of_lt hwidth]
  rw [State.watchdogFires_iff, hlimit, hs.fed, Nat.add_sub_cancel_left]
  exact and_iff_right harmed

/-- A draw within the watchdog's limit makes the step its tick. -/
theorem State.Inv.step_of_tick {s : State} (hs : s.Inv) (hp : s.nextDraw.powerOn = false)
    (hgap : s.nextDraw.gap < s.cfg.wdtTimeout
      ∨ (s.nextDraw.gap = s.cfg.wdtTimeout ∧ s.nextDraw.expireAtLimit = false)) :
    step s = tick (s.time + s.nextDraw.gap) s.nextDraw.cmd s.nextDraw.txOk
      (s.time + s.nextDraw.gap + s.nextDraw.latency) s.presented := by
  refine Machine.step_of_tick s hs.valid hs.boundary hp (Bool.eq_false_iff.mpr fun hfires => ?_)
  rcases (hs.watchdogFires_iff _ _).mp hfires with hgt | ⟨heq, he⟩
  · omega
  · rcases hgap with hlt | ⟨-, hne⟩
    · omega
    · exact absurd (hne.symm.trans he) Bool.false_ne_true

theorem State.Inv.step_of_expiry {s : State} (hs : s.Inv) (hp : s.nextDraw.powerOn = false)
    (hgap : s.cfg.wdtTimeout < s.nextDraw.gap
      ∨ (s.nextDraw.gap = s.cfg.wdtTimeout ∧ s.nextDraw.expireAtLimit = true)) :
    step s = .next (s.presented.wdtExpire (s.time + s.nextDraw.gap + s.nextDraw.latency)) :=
  Machine.step_of_expiry s hs.valid hs.boundary hp ((hs.watchdogFires_iff _ _).mpr hgap)

/-! ### The outputs of a step -/

/-- The outputs that carry no data: the heartbeat, the arming of the watchdog and a restart. -/
def Output.IsPulse (o : Output) : Prop := o = .hb ∨ (∃ timeout, o = .wdtArm timeout) ∨ ∃ c, o = .restart c

/-- The outputs `l` are at most one transmit request `tx`, then records, in a development build only, then pulses. -/
def Emits (tx : Output) (consoleEn : Bool) (l : List Output) : Prop :=
  ∃ sent records pulses : List Output, l = sent ++ records ++ pulses ∧ (sent = [] ∨ sent = [tx])
    ∧ (∀ o ∈ records, consoleEn = true ∧ ∃ r, o = .con r) ∧ ∀ o ∈ pulses, o.IsPulse

theorem Emits.of_pulses {tx : Output} {b : Bool} {l : List Output} (h : ∀ o ∈ l, o.IsPulse) : Emits tx b l :=
  ⟨[], [], l, rfl, .inl rfl, fun _ ho => absurd ho List.not_mem_nil, h⟩

theorem State.encodeFrame_txRequest_presented (s : State) :
    s.presented.encodeFrame.txRequest = s.encodeFrame.txRequest := by
  rw [State.txRequest_encodeFrame, State.txRequest_encodeFrame, s.presented_cfg]
  simp only [State.memRead_encodeFrame_congr (State.memRead_congr s.presented_frame)]

theorem tick_emits {s u : State} {t t0 : Nat} {cmd : Option CmdWord} {ok : Bool} (hout : s.out = [])
    (hreset : s.resetOut = []) (hs : s.sched ≠ .faulted) (hu : tick t cmd ok t0 s = .next u) :
    Emits s.encodeFrame.txRequest s.cfg.consoleEn u.outputs := by
  obtain ⟨hcfg, -, -, -, -, -, -, -, hresetA⟩ := s.schedulerPhase_frame_rule (timeReg t) ok
  obtain ⟨sent, failed, hsent, hfailed, hphaseA, -⟩ := s.schedulerPhase_outputs (timeReg t) ok hout hs
  have hreport : ∀ o ∈ failed, s.cfg.consoleEn = true ∧ ∃ r, o = .con r := by
    intro o ho
    rcases hfailed with rfl | ⟨-, hen, n, rfl⟩
    · exact absurd ho List.not_mem_nil
    · exact ⟨hen, _, List.mem_singleton.mp ho⟩
  by_cases hfaulted : (s.schedulerPhase (timeReg t) ok).sched = .faulted
  · have hrestarted := Host.Outcome.next.inj (hu.symm.trans (tick_of_faulted hfaulted cmd t0))
    refine ⟨sent, failed, [.restart .exhausted, .wdtArm (BitVec.ofNat 32 s.cfg.wdtTimeout)], ?_, hsent, hreport, ?_⟩
    · rw [hrestarted, State.outputs, State.forceRestart_out, hphaseA, State.forceRestart, State.restart,
        State.resetSequence_resetOut, State.emit_resetOut, State.emit_cfg, hresetA, hreset, hcfg, List.append_assoc]
      rfl
    · simp [Output.IsPulse]
  · obtain ⟨-, -, -, -, hresetU, response, hresponse, houtU⟩ := tick_of_healthy hfaulted hu
    refine ⟨sent, failed ++ response, [.hb], ?_, hsent, fun o ho => ?_, by simp [Output.IsPulse]⟩
    · rw [State.outputs, houtU, hresetU, hreset, hphaseA, List.append_nil]
      simp only [List.append_assoc]
    · exact (List.mem_append.mp ho).elim (hreport o) (hresponse o)

/-- What an event of a run emits. -/
theorem step_emits {s s' : State} (hs : s.Inv) (h : step s = .next s') :
    Emits s.encodeFrame.txRequest s.cfg.consoleEn s'.outputs := by
  obtain ⟨-, ⟨-, rfl⟩ | ⟨-, -, ⟨-, rfl⟩ | ⟨-, htick⟩⟩⟩ := step_cases h
  · refine Emits.of_pulses fun o ho => ?_
    obtain rfl : o = .wdtArm _ := List.mem_singleton.mp ho
    exact .inr (.inl ⟨_, rfl⟩)
  · refine Emits.of_pulses fun o ho => ?_
    rcases List.mem_cons.mp ho with rfl | ho
    · exact .inr (.inr ⟨_, rfl⟩)
    · obtain rfl : o = .wdtArm _ := List.mem_singleton.mp ho
      exact .inr (.inl ⟨_, rfl⟩)
  · have hemits := tick_emits s.presented_out s.presented_resetOut hs.presented_sched_ne_faulted htick
    rwa [s.encodeFrame_txRequest_presented, s.presented_cfg] at hemits

section
variable {s : State} {tx : Output} {b : Bool} (h : Emits tx b s.outputs)
include h

/-- The one request there can be. -/
theorem Emits.eq_of_mem_tx {id : Nat} {len : BitVec 4} {bytes : List Byte} (hmem : .tx id len bytes ∈ s.outputs) :
    tx = .tx id len bytes := by
  obtain ⟨sent, records, pulses, hl, hsent, hrecords, hpulses⟩ := h
  rw [hl] at hmem
  rcases List.mem_append.mp hmem with hmem | hmem
  · rcases List.mem_append.mp hmem with hmem | hmem
    · rcases hsent with rfl | rfl
      · exact absurd hmem List.not_mem_nil
      · exact (List.mem_singleton.mp hmem).symm
    · obtain ⟨-, r, hr⟩ := hrecords _ hmem
      exact Output.noConfusion hr
  · rcases hpulses _ hmem with ho | ⟨x, ho⟩ | ⟨c, ho⟩ <;> exact Output.noConfusion ho

theorem Emits.txPayloads_eq {id : Nat} {len : BitVec 4} {bytes : List Byte} (htx : tx = .tx id len bytes) :
    s.txPayloads = [] ∨ s.txPayloads = [bytes] := by
  obtain ⟨sent, records, pulses, hl, hsent, hrecords, hpulses⟩ := h
  have hrest : s.txPayloads = { s with out := sent, resetOut := [] }.txPayloads := by
    rw [State.txPayloads, State.txPayloads, hl, State.outputs, List.append_nil, List.append_assoc,
      List.filterMap_append, (List.filterMap_eq_nil_iff (l := records ++ pulses)).mpr, List.append_nil]
    intro o ho
    rcases List.mem_append.mp ho with ho | ho
    · obtain ⟨-, r, rfl⟩ := hrecords o ho
      rfl
    · rcases hpulses o ho with rfl | ⟨x, rfl⟩ | ⟨c, rfl⟩ <;> rfl
  rw [hrest]
  rcases hsent with rfl | rfl
  · exact .inl rfl
  · subst htx
    exact .inr rfl

/-- Without a console there is no record. -/
theorem Emits.conRecords_eq_nil {id : Nat} {len : BitVec 4} {bytes : List Byte} (htx : tx = .tx id len bytes)
    (hb : b = false) : s.conRecords = [] := by
  obtain ⟨sent, records, pulses, hl, hsent, hrecords, hpulses⟩ := h
  rw [State.conRecords, hl]
  refine List.filterMap_eq_nil_iff.mpr fun o ho => ?_
  rcases List.mem_append.mp ho with ho | ho
  · rcases List.mem_append.mp ho with ho | ho
    · rcases hsent with rfl | rfl
      · exact absurd ho List.not_mem_nil
      · rw [List.mem_singleton.mp ho, htx]
    · exact absurd (hb.symm.trans (hrecords o ho).1) Bool.false_ne_true
  · rcases hpulses o ho with rfl | ⟨x, rfl⟩ | ⟨c, rfl⟩ <;> rfl

end

end Sys2Proof.Machine
end


section
/-! SUPPORT. What a deployed build's frame holds, 45_console.md on the deployed build. -/

namespace Sys2Proof.Machine

/-- Every placed bit is 0: only the checksum and the counter hold anything. -/
def State.OnlyCounter (s : State) : Prop :=
  s.memRead 1 &&& 0xF0#8 = 0 ∧ ∀ a : FrameAddr, 2 ≤ a.val → s.memRead a = 0

theorem State.OnlyCounter.of_frame {s t : State} (h : s.OnlyCounter) (hf : t.frame = s.frame) : t.OnlyCounter := by
  obtain ⟨hone, hrest⟩ := h
  refine ⟨?_, fun a ha => ?_⟩
  · rw [State.memRead_congr hf, hone]
  · rw [State.memRead_congr hf, hrest a ha]

theorem State.onlyCounter_of_frame_nil {s : State} (h : s.frame = []) : s.OnlyCounter := by
  have hread : ∀ a, s.memRead a = 0 := fun a => by rw [State.memRead, h]; rfl
  refine ⟨?_, fun a _ => hread a⟩
  rw [hread]
  decide

/-- The counter's byte after ENCODE holds the counter alone. -/
theorem State.OnlyCounter.memRead_encodeFrame_one {s : State} (h : s.OnlyCounter) :
    s.encodeFrame.memRead 1 = (s.memRead 1 + 1) &&& 0x0F#8 := by
  obtain ⟨hone, -⟩ := h
  rw [State.memRead_encodeFrame_one, State.memRead_ctrAdv_one, hone]
  exact BitVec.zero_or

theorem State.OnlyCounter.encodeFrame {s : State} (h : s.OnlyCounter) : s.encodeFrame.OnlyCounter := by
  have hnibbles : 0x0F#8 &&& 0xF0#8 = 0#8 := by decide
  refine ⟨?_, fun a ha => ?_⟩
  · rw [h.memRead_encodeFrame_one, BitVec.and_assoc, hnibbles]
    exact BitVec.and_zero
  · obtain ⟨-, hrest⟩ := h
    have h0 : a ≠ 0 := fun h0 => by simp [h0] at ha
    have h1 : a ≠ 1 := fun h1 => by simp [h1] at ha
    rw [s.memRead_encodeFrame_other h0 h1, hrest a ha]

/-- Its encoded frame is the counter, twice. -/
theorem State.OnlyCounter.frameBytes_encodeFrame {s : State} (h : s.OnlyCounter) :
    ∃ c : Byte, c.toNat ≤ 15 ∧ s.encodeFrame.frameBytes = [c, c, 0, 0, 0, 0, 0, 0] := by
  refine ⟨s.encodeFrame.memRead 1, ?_, ?_⟩
  · rw [h.memRead_encodeFrame_one, toNat_and_lowNibble]
    omega
  · obtain ⟨-, hrest⟩ := h.encodeFrame
    have hzero : s.encodeFrame.memRead 0 = s.encodeFrame.memRead 1 := by
      rw [s.encodeFrame_frameWellFormed, State.xorOfBytes]
      simp [hrest]
    rw [State.frameBytes_eq, hzero]
    simp [hrest]

/-- A tick of a deployed build writes the frame by ENCODE or by its restart only. -/
theorem tick_keeps_onlyCounter {s u : State} {t t0 : Nat} {cmd : Option CmdWord} {ok : Bool}
    (hdeployed : s.cfg.consoleEn = false) (h : s.OnlyCounter) (hu : tick t cmd ok t0 s = .next u) :
    u.OnlyCounter := by
  rcases tick_effect hu with ⟨-, rfl⟩ | ⟨-, m, response, rfl, -, hm⟩
  · exact State.onlyCounter_of_frame_nil rfl
  · have hphaseA : m = (s.schedulerPhase (timeReg t) ok).frame :=
      hm.resolve_right fun ⟨hen, _⟩ => absurd (hdeployed.symm.trans hen) Bool.false_ne_true
    rcases s.schedulerPhase_frame_cases (timeReg t) ok with hf | hf
    · exact h.of_frame (hphaseA.trans hf)
    · exact h.encodeFrame.of_frame (hphaseA.trans hf)

theorem step_keeps_onlyCounter {s s' : State} (hdeployed : s.cfg.consoleEn = false) (h : s.OnlyCounter)
    (hstep : step s = .next s') : s'.OnlyCounter := by
  obtain ⟨-, ⟨-, rfl⟩ | ⟨-, -, ⟨-, rfl⟩ | ⟨-, htick⟩⟩⟩ := step_cases hstep
  · exact State.onlyCounter_of_frame_nil rfl
  · exact State.onlyCounter_of_frame_nil rfl
  · exact tick_keeps_onlyCounter (by rw [s.presented_cfg, hdeployed]) (h.of_frame s.presented_frame) htick

end Sys2Proof.Machine
end

section
/-! SUPPORT. The statements on single steps settled: reset, watchdog, the environment's draws, the invariant, what is
transmitted, and the deployed build. -/

namespace Sys2Proof.Machine

/-- Settles O33: both restarts, and the state after reset, are the reset sequence. -/
theorem resetGivesEveryElementItsValue : Obligations.ResetGivesEveryElementItsValue := by
  unfold Obligations.ResetGivesEveryElementItsValue
  intro holds
  have hreset : ∀ (s : State) (t0 : Nat), holds (s.resetSequence t0) t0 := fun s t0 =>
    ⟨s.memRead_resetSequence t0, s.getF_resetSequence t0, rfl, rfl, rfl, rfl, rfl, rfl, rfl, rfl,
      s.resetSequence_frameWellFormed t0, rfl⟩
  exact ⟨fun s t0 => ⟨hreset s t0, rfl, hreset (s.emit (.restart .exhausted)) t0, rfl,
    hreset (s.emit (.restart .watchdog)) t0, rfl⟩, hreset { State.reset with resetOut := [] } 0⟩

/-- Settles O35: the watchdog's test is the condition under which an expiry is admitted, and each event has its draw. -/
theorem drawsAreExactlyTheAdmittedEvents : Obligations.DrawsAreExactlyTheAdmittedEvents := by
  intro s harmed
  refine ⟨fun d => ?admitted, fun e he => ?drawn⟩
  case admitted =>
    have hfires := s.watchdogFires_iff (s.time + d.gap) d.expireAtLimit
    rcases s.nextEvent_cases d with ⟨-, he⟩ | ⟨-, hw, he⟩ | ⟨-, hw, he⟩ <;> rw [he]
    · exact Nat.le_add_right _ _
    · obtain ⟨-, hlimit⟩ := hfires.mp hw
      exact ⟨Nat.le_add_right _ _, by omega, Nat.le_add_right _ _⟩
    · have hlimit : ¬ s.wdtLimit.toNat < s.time + d.gap - s.wdtFedAt := fun h =>
        absurd (hw.symm.trans (hfires.mpr ⟨harmed, .inl h⟩)) Bool.false_ne_true
      exact ⟨Nat.le_add_right _ _, Nat.not_lt.mp hlimit, Nat.le_add_right _ _⟩
  case drawn =>
    cases e with
    | tick t cmd ok t0 =>
      obtain ⟨hle, hlimit, hstart⟩ := he
      have hquiet : s.watchdogFires t false = false := by
        rw [Bool.eq_false_iff, ne_eq, State.watchdogFires_iff]
        simp only [Bool.false_eq_true, and_false, or_false]
        omega
      refine ⟨⟨false, t - s.time, false, cmd, ok, t0 - t⟩, ?_⟩
      simp [State.nextEvent, Nat.add_sub_cancel' hle, Nat.add_sub_cancel' hstart, hquiet]
    | wdtExpire t t0 =>
      obtain ⟨hle, hlimit, hstart⟩ := he
      have hfires : s.watchdogFires t true = true := by
        rw [State.watchdogFires_iff]
        exact ⟨harmed, hlimit.lt_or_eq.imp_right fun heq => ⟨heq.symm, rfl⟩⟩
      refine ⟨⟨false, t - s.time, true, none, true, t0 - t⟩, ?_⟩
      simp [State.nextEvent, Nat.add_sub_cancel' hle, Nat.add_sub_cancel' hstart, hfires]
    | reset t0 =>
      have hle : s.time ≤ t0 := he
      refine ⟨⟨true, t0 - s.time, false, none, true, 0⟩, ?_⟩
      simp [State.nextEvent, Nat.add_sub_cancel' hle]

/-- Settles O36: in a state of a run the watchdog measures the gap against `WDT_TIMEOUT`. -/
theorem watchdogExpiryAtAStep : Obligations.WatchdogExpiryAtAStep :=
  fun _ hs hp => ⟨fun hgap => ⟨hs.step_of_expiry hp hgap, rfl⟩, hs.step_of_tick hp⟩

/-- Settles O39: the step is the tick its draw asks for, and that tick serves the word. -/
theorem stepRunsTheDecodedInstruction : Obligations.StepRunsTheDecodedInstruction := by
  have hserved : ∀ (s : State) (w : CmdWord) (i : Instr), s.Inv → s.cfg.consoleEn = true → decode w = .instr i →
      s.nextDraw.powerOn = false → s.nextDraw.cmd = some w → s.nextDraw.gap < s.cfg.wdtTimeout →
      (s.presented.schedulerPhase (timeReg (s.time + s.nextDraw.gap)) s.nextDraw.txOk).sched ≠ .faulted →
      step s = andThen (exec i { s.presented.schedulerPhase (timeReg (s.time + s.nextDraw.gap)) s.nextDraw.txOk with
          phase := .b }) fun b => { b with phase := .c }.supervisorPhase (s.time + s.nextDraw.gap) := by
    intro s w i hs hen hw hp hcmd hgap hhealthy
    rw [hs.step_of_tick hp (.inl hgap), hcmd]
    exact tick_of_instr (by rw [s.presented_cfg, hen]) hw hhealthy _
  refine ⟨hserved, fun s w i hs hen hdue hw => ?_⟩
  obtain ⟨-, -, -, htimeout, -⟩ := Config.bounds_of_valid hs.valid
  have hplaced : (s.withFetchWord 16 w).Inv := ⟨hs.valid, hs.canonical, hs.boundary, hs.fed, hs.limit⟩
  have hquiet : s.beginEvent.schedulerPhase (timeReg s.time) true = s.beginEvent :=
    s.beginEvent.schedulerPhase_of_not_due true ((State.isDue_congr rfl rfl _).trans hdue)
  have hstep := hserved (s.withFetchWord 16 w) (BitVec.ofNat 16 w) i hplaced hen hw rfl rfl htimeout
  have hphaseA : (s.withFetchWord 16 w).presented.schedulerPhase
      (timeReg ((s.withFetchWord 16 w).time + (s.withFetchWord 16 w).nextDraw.gap))
      (s.withFetchWord 16 w).nextDraw.txOk = s.beginEvent := hquiet
  rw [hphaseA] at hstep
  exact hstep hplaced.presented_sched_ne_faulted

/-- Settles O40: the state after reset is one the reset sequence gives. -/
theorem resetSatisfiesTheInvariant : Obligations.ResetSatisfiesTheInvariant :=
  State.resetSequence_inv { State.reset with resetOut := [] } 0 (by decide)

/-- Settles O41: the reset sequence establishes the invariant and a tick keeps it, and every step is one of them. -/
theorem everyStepKeepsTheInvariant : Obligations.EveryStepKeepsTheInvariant :=
  fun _ _ hs h => step_keeps_inv hs h

/-- Settles O42: at a tick boundary each of the three kinds of events has a next state. -/
theorem noRunEverStops : Obligations.NoRunEverStops := by
  intro s hs
  obtain ⟨s', h⟩ := exists_step_eq_next hs.valid (.inr hs.boundary)
  exact ⟨s', h, step_keeps_inv hs h, step_time_le h⟩

/-- Settles O43: an event writes neither the configuration nor the draws, and one draw is taken before it. -/
theorem configurationIsNeverWritten : Obligations.ConfigurationIsNeverWritten := by
  intro s s' h
  obtain ⟨hcfg, hinputs, hdraws⟩ := step_environment h
  refine ⟨hcfg, ?_⟩
  cases hplaced : s.inputs with
  | nil =>
    simp only [State.drawTaken, hplaced] at hinputs hdraws
    exact .inr ⟨rfl, hinputs, hdraws⟩
  | cons d rest =>
    simp only [State.drawTaken, hplaced] at hinputs hdraws
    exact .inl ⟨d, by rw [hinputs], hdraws⟩

/-- Settles O44: the one request a step can emit is that of the encoded frame, and ENCODE keeps the invariant's facts
about the frame. -/
theorem transmittedFramesAreWellFormedAndFresh : Obligations.TransmittedFramesAreWellFormedAndFresh := by
  intro s s' hs h
  have hemits := step_emits hs h
  obtain ⟨hdom, hres, -⟩ := s.atTickBoundary_iff.mp hs.boundary
  refine ⟨fun id len bytes hmem => ?_, ?_⟩
  · have htx := hemits.eq_of_mem_tx hmem
    simp only [State.txRequest, Output.tx.injEq] at htx
    obtain ⟨rfl, rfl, rfl⟩ := htx
    exact ⟨rfl, rfl, rfl, rfl, State.xorAll_of_frameWellFormed s.encodeFrame_frameWellFormed,
      s.toNat_getF_encodeFrame_ctr, State.encodeFrame_fieldsInDomain (Config.layout_wellFormed hs.valid) hdom,
      State.encodeFrame_reservedZero hres⟩
  · rcases hemits.txPayloads_eq rfl with hnone | hone
    · rw [hnone]
      exact Nat.zero_le _
    · rw [hone]
      exact Nat.le_refl _

/-- Settles O48: without a console only ENCODE and the reset sequence write the frame, and all a step emits besides
pulses is the request. -/
theorem deployedBuildSendsOnlyTheCounter : Obligations.DeployedBuildSendsOnlyTheCounter := by
  intro s s' hs hdeployed hone hrest h
  have honly : s.OnlyCounter := ⟨hone, hrest⟩
  have hemits := step_emits hs h
  obtain ⟨hone', hrest'⟩ := step_keeps_onlyCounter hdeployed honly h
  refine ⟨hone', hrest', hemits.conRecords_eq_nil rfl hdeployed, fun bytes hmem => ?_⟩
  rcases hemits.txPayloads_eq rfl with hnone | hsent
  · exact absurd (hnone ▸ hmem) List.not_mem_nil
  · obtain rfl := List.mem_singleton.mp (hsent ▸ hmem)
    exact honly.frameBytes_encodeFrame

/-- Settles O50: the draw of a power-on reset comes before every other test. -/
theorem powerOnResetWorksFromEveryState : Obligations.PowerOnResetWorksFromEveryState := by
  intro s hv hp
  exact ⟨_, step_of_powerOn s hv hp, State.resetSequence_inv _ _ (by rw [s.presented_cfg, hv]), rfl, rfl⟩

/-- Settles O51: the three cases exclude each other. -/
theorem stepRefusesInvalidConfigurationsAndUnreachableStates :
    Obligations.StepRefusesInvalidConfigurationsAndUnreachableStates := by
  intro s
  refine ⟨⟨fun h => ?configuration, step_of_invalid s⟩,
    ⟨fun h => ?unreachable, fun ⟨hv, hp, hb⟩ => step_of_unreachable s hv hb hp⟩, exists_step_eq_next⟩
  case configuration =>
    rcases Bool.eq_false_or_eq_true s.cfg.valid with hv | hv
    · rcases step_next_or_unreachable hv with ⟨s', hnext⟩ | ⟨-, -, hrefused⟩
      · cases hnext.symm.trans h
      · cases hrefused.symm.trans h
    · exact hv
  case unreachable =>
    rcases Bool.eq_false_or_eq_true s.cfg.valid with hv | hv
    · rcases step_next_or_unreachable hv with ⟨s', hnext⟩ | ⟨hp, hb, -⟩
      · cases hnext.symm.trans h
      · exact ⟨hv, hp, hb⟩
    · cases (step_of_invalid s hv).symm.trans h

end Sys2Proof.Machine
end

section
/-! SUPPORT. Episodes of ticks, 43_scheduler.md section 4: one step on a placed draw, and the runs of steps whose
attempts all fail, that stay below the threshold, or that wait for the next attempt. -/

namespace Sys2Proof.Machine

theorem trace_cons {s s1 s' : State} {n : Nat} {outs : List (List Output)} (h : step s = .next s1)
    (ht : trace n s1 = some (outs, s')) : trace (n + 1) s = some (s1.out :: outs, s') := by
  rw [trace, h]
  simp only [ht, Option.map_some]

/-! ### One step on a placed draw -/

/-- `s1` is what a step leaves that takes the placed draw `d` and performs its tick without a restart. -/
structure HealthyStep (s : State) (d : EnvDraw) (rest : List EnvDraw) (s1 : State) : Prop where
  step_eq : step s = .next s1
  inv : s1.Inv
  inputs : s1.inputs = rest
  cfg : s1.cfg = s.cfg
  time : s1.time = s.time + d.gap
  failcnt : s1.failcnt = (s.presented.schedulerPhase (timeReg (s.time + d.gap)) d.txOk).failcnt
  lastSend : s1.lastSend = (s.presented.schedulerPhase (timeReg (s.time + d.gap)) d.txOk).lastSend
  no_restart : ∀ c, Output.restart c ∉ s1.out
  one_heartbeat : s1.out.count .hb = 1
  mem_phaseA_of_tx : ∀ id len bytes, Output.tx id len bytes ∈ s1.out →
    Output.tx id len bytes ∈ (s.presented.schedulerPhase (timeReg (s.time + d.gap)) d.txOk).out

section
variable {s : State} {d : EnvDraw} {rest : List EnvDraw} (hs : s.Inv) (hin : s.inputs = d :: rest)
  (hp : d.powerOn = false) (hgap : d.gap < s.cfg.wdtTimeout)
include hs hin hp hgap

/-- A placed draw within the watchdog's limit makes the step its tick. -/
theorem State.Inv.step_of_placed :
    step s = tick (s.time + d.gap) d.cmd d.txOk (s.time + d.gap + d.latency) s.presented
      ∧ s.presented.inputs = rest := by
  obtain ⟨rfl, htaken⟩ := s.drawTaken_cons d rest hin
  refine ⟨hs.step_of_tick hp (.inl hgap), ?_⟩
  rw [State.presented, htaken]
  rfl

theorem State.Inv.exists_healthyStep
    (h : (s.presented.schedulerPhase (timeReg (s.time + d.gap)) d.txOk).sched ≠ .faulted) :
    ∃ s1, HealthyStep s d rest s1 := by
  obtain ⟨hstep, hinputs⟩ := hs.step_of_placed hin hp hgap
  obtain ⟨s1, htick, hkept⟩ := goesTo_tick_without_restart s.presented (s.time + d.gap)
    (s.time + d.gap + d.latency) d.cmd d.txOk h
  obtain ⟨hcfg, hinputs1, -⟩ := tick_environment htick
  obtain ⟨hfailcnt, hlast, htime, -, -, response, hresponse, hout⟩ := tick_of_healthy h htick
  have hno : ∀ c, Output.restart c ∉ s1.out := fun c hc => absurd (hkept c hc) List.not_mem_nil
  have hcount : s1.out.count .hb = 1 := by
    obtain ⟨-, hheartbeats⟩ := oneHeartbeatPerHealthyTick
    rcases hheartbeats _ _ _ _ _ _ s.presented_out hs.presented_sched_ne_faulted htick with
      ⟨hone, -⟩ | ⟨-, -, hrestart⟩
    · exact hone
    · exact absurd (List.mem_of_getLast? hrestart) (hno _)
  exact ⟨s1, {
    step_eq := hstep.trans htick
    inv := step_keeps_inv hs (hstep.trans htick)
    inputs := hinputs1.trans hinputs
    cfg := hcfg.trans s.presented_cfg
    time := htime
    failcnt := hfailcnt
    lastSend := hlast
    no_restart := hno
    one_heartbeat := hcount
    mem_phaseA_of_tx := fun id len bytes hmem => by
      rw [hout] at hmem
      rcases List.mem_append.mp hmem with hmem | hmem
      · rcases List.mem_append.mp hmem with hmem | hmem
        · exact hmem
        · obtain ⟨-, r, hr⟩ := hresponse _ hmem
          exact Output.noConfusion hr
      · exact Output.noConfusion (List.mem_singleton.mp hmem) }⟩

/-- A tick that finds room below the threshold, or succeeds, is healthy, and counts at most one failure. -/
theorem State.Inv.exists_healthyStep_below (hn : d.txOk = false → s.failcnt.toNat + 1 < s.cfg.maxFail) :
    ∃ s1, HealthyStep s d rest s1 ∧ s1.failcnt.toNat ≤ s.failcnt.toNat + 1 := by
  obtain ⟨-, -, hmax, -⟩ := Config.bounds_of_valid hs.valid
  obtain ⟨hhealthy, hcount⟩ := s.presented.schedulerPhase_healthy (timeReg (s.time + d.gap)) d.txOk
    hs.presented_sched_ne_faulted (by rwa [s.presented_failcnt, s.presented_cfg])
    (by rwa [s.presented_cfg])
  obtain ⟨s1, h1⟩ := hs.exists_healthyStep hin hp hgap hhealthy
  exact ⟨s1, h1, by rwa [h1.failcnt, ← s.presented_failcnt]⟩

/-- A tick that is not due only serves its command and feeds the watchdog. -/
theorem State.Inv.exists_quietStep (hquiet : s.isDue (timeReg (s.time + d.gap)) = false) :
    ∃ s1, HealthyStep s d rest s1 ∧ s1.lastSend = s.lastSend ∧ ∀ id len bytes, Output.tx id len bytes ∉ s1.out := by
  have hphaseA := s.presented.schedulerPhase_of_not_due d.txOk ((s.isDue_presented _).trans hquiet)
  obtain ⟨s1, h1⟩ := hs.exists_healthyStep hin hp hgap (hphaseA.symm ▸ hs.presented_sched_ne_faulted)
  refine ⟨s1, h1, by rw [h1.lastSend, hphaseA, s.presented_lastSend], fun id len bytes hmem => ?_⟩
  have hmemA := h1.mem_phaseA_of_tx id len bytes hmem
  rw [hphaseA] at hmemA
  exact absurd hmemA List.not_mem_nil

end

/-! ### A fault episode -/

/-- The draw of a tick that is due from an attempt at the previous event, fails, and keeps the watchdog fed. -/
def FailsDue (c : Config) (d : EnvDraw) : Prop :=
  d.powerOn = false ∧ d.txOk = false ∧ c.period ≤ d.gap ∧ d.gap < c.wdtTimeout

theorem FailsDue.isDue {s : State} {d : EnvDraw} (hd : FailsDue s.cfg d) (hs : s.Inv)
    (hl : s.lastSend = timeReg s.time) : s.presented.isDue (timeReg (s.time + d.gap)) = true := by
  obtain ⟨-, -, hperiod, hgap⟩ := hd
  obtain ⟨-, -, -, -, hwidth⟩ := Config.bounds_of_valid hs.valid
  rw [s.isDue_presented, s.isDue_timeReg_iff hl (Nat.le_add_right _ _) (by omega)]
  omega

section
variable {s : State} {d : EnvDraw} {rest : List EnvDraw} (hd : FailsDue s.cfg d) (hs : s.Inv)
  (hl : s.lastSend = timeReg s.time) (hin : s.inputs = d :: rest)
include hd hs hl hin

theorem FailsDue.exists_step_below (hbelow : s.failcnt.toNat + 1 < s.cfg.maxFail) :
    ∃ s1, HealthyStep s d rest s1 ∧ s1.lastSend = timeReg s1.time ∧ s1.failcnt.toNat = s.failcnt.toNat + 1 := by
  have hdue := hd.isDue hs hl
  obtain ⟨hp, hok, -, hgap⟩ := hd
  obtain ⟨-, -, hmax, -⟩ := Config.bounds_of_valid hs.valid
  obtain ⟨s1, h1, -⟩ := hs.exists_healthyStep_below hin hp hgap fun _ => hbelow
  refine ⟨s1, h1, ?_, ?_⟩
  · rw [h1.lastSend, h1.time, State.schedulerPhase_lastSend_of_due _ _ hdue]
  · rw [h1.failcnt, hok, State.schedulerPhase_of_failure _ hdue, s.presented_failcnt]
    exact s.toNat_failcnt_add_one (by omega)

theorem FailsDue.exists_step_at_threshold (hreached : s.failcnt.toNat + 1 = s.cfg.maxFail) :
    ∃ s1, step s = .next s1 ∧ s1.inputs = rest ∧ s1.failcnt = 0 ∧ (∀ a : FrameAddr, s1.memRead a = 0)
      ∧ s1.out.count (.restart .exhausted) = 1 ∧ s1.out.count (.restart .watchdog) = 0 ∧ s1.out.count .hb = 0 := by
  have hdue := hd.isDue hs hl
  obtain ⟨hp, hok, -, hgap⟩ := hd
  obtain ⟨-, -, hmax, -⟩ := Config.bounds_of_valid hs.valid
  obtain ⟨hstep, hinputs⟩ := hs.step_of_placed hin hp hgap
  obtain ⟨hat, -⟩ := thresholdFailureRestartsAtOnce s.presented (s.time + d.gap) (s.time + d.gap + d.latency) d.cmd hdue
    (by rwa [s.presented_cfg])
  obtain ⟨htick, -, hout⟩ := hat (by rwa [s.presented_failcnt, s.presented_cfg])
  rw [hok] at hstep
  obtain ⟨-, hinputs1, -⟩ := tick_environment htick
  refine ⟨_, hstep.trans htick, hinputs1.trans hinputs, rfl, fun _ => rfl, ?_⟩
  rw [hout, s.presented_out, State.txRequest]
  cases s.presented.cfg.consoleEn <;> exact ⟨rfl, rfl, rfl⟩

end

/-- Failing ticks from an attempt up to the threshold: the last restarts and no other does (43_scheduler.md
section 4). -/
theorem trace_of_failing_draws (ds rest : List EnvDraw) (s : State) (hs : s.Inv) (hl : s.lastSend = timeReg s.time)
    (hin : s.inputs = ds ++ rest) (hlen : ds.length + s.failcnt.toNat = s.cfg.maxFail)
    (hds : ∀ d ∈ ds, FailsDue s.cfg d) :
    ∃ early last s', trace ds.length s = some (early ++ [last], s')
      ∧ (∀ c, ∀ o ∈ early, Output.restart c ∉ o) ∧ (∀ o ∈ early, o.count .hb = 1)
      ∧ last.count (.restart .exhausted) = 1 ∧ last.count (.restart .watchdog) = 0 ∧ last.count .hb = 0
      ∧ s'.failcnt = 0 ∧ (∀ a : FrameAddr, s'.memRead a = 0) ∧ s'.inputs = rest := by
  induction ds generalizing s with
  | nil =>
    obtain ⟨-, -, hn, -⟩ := s.atTickBoundary_iff.mp hs.boundary
    rw [List.length_nil] at hlen
    omega
  | cons d ds ih =>
    obtain ⟨hd, hds⟩ := List.forall_mem_cons.mp hds
    rw [List.length_cons] at hlen
    by_cases hreached : s.failcnt.toNat + 1 = s.cfg.maxFail
    · obtain rfl : ds = [] := List.eq_nil_of_length_eq_zero (by omega)
      obtain ⟨s1, hstep, hinputs, hfailcnt, hzero, hexhausted, hwatchdog, hnoHb⟩ :=
        hd.exists_step_at_threshold hs hl hin hreached
      exact ⟨[], s1.out, s1, trace_cons hstep rfl, fun _ _ ho => absurd ho List.not_mem_nil,
        fun _ ho => absurd ho List.not_mem_nil, hexhausted, hwatchdog, hnoHb, hfailcnt, hzero, hinputs⟩
    · obtain ⟨-, -, hn, -⟩ := s.atTickBoundary_iff.mp hs.boundary
      obtain ⟨s1, h1, hlast, hcount⟩ := hd.exists_step_below hs hl hin (by omega)
      obtain ⟨early, last, s', htrace, hearly, hbeats, hend⟩ := ih s1 h1.inv hlast h1.inputs
        (by rw [hcount, h1.cfg]; omega) (by rwa [h1.cfg])
      exact ⟨s1.out :: early, last, s', trace_cons h1.step_eq htrace,
        fun c => List.forall_mem_cons.mpr ⟨h1.no_restart c, hearly c⟩,
        List.forall_mem_cons.mpr ⟨h1.one_heartbeat, hbeats⟩, hend⟩

/-! ### Fewer ticks than an episode needs -/

/-- Ticks fewer than the failures that are missing to the threshold give no restart. -/
theorem trace_below_threshold (ds rest : List EnvDraw) (s : State) (hs : s.Inv) (hin : s.inputs = ds ++ rest)
    (hlen : s.failcnt.toNat + ds.length < s.cfg.maxFail)
    (hds : ∀ d ∈ ds, d.powerOn = false ∧ d.gap < s.cfg.wdtTimeout) :
    ∃ outs s', trace ds.length s = some (outs, s') ∧ (∀ c, ∀ o ∈ outs, Output.restart c ∉ o)
      ∧ s'.failcnt.toNat ≤ s.failcnt.toNat + ds.length := by
  induction ds generalizing s with
  | nil => exact ⟨[], s, rfl, fun _ _ ho => absurd ho List.not_mem_nil, Nat.le_refl _⟩
  | cons d ds ih =>
    obtain ⟨⟨hp, hgap⟩, hds⟩ := List.forall_mem_cons.mp hds
    rw [List.length_cons] at hlen ⊢
    obtain ⟨s1, h1, hcount⟩ := hs.exists_healthyStep_below hin hp hgap fun _ => by omega
    obtain ⟨outs, s', htrace, hno, hle⟩ := ih s1 h1.inv h1.inputs (by rw [h1.cfg]; omega) (by rwa [h1.cfg])
    exact ⟨s1.out :: outs, s', trace_cons h1.step_eq htrace,
      fun c => List.forall_mem_cons.mpr ⟨h1.no_restart c, hno c⟩, by omega⟩

/-! ### Waiting for the next attempt -/

/-- From the latest attempt at `t1`, ticks before `t1 + PERIOD` send nothing and the first at or after it sends
(43_scheduler.md section 4). -/
theorem trace_until_due (quiet : List EnvDraw) (d : EnvDraw) (rest : List EnvDraw) (t1 : Nat) (s : State) (hs : s.Inv)
    (hl : s.lastSend = timeReg t1) (hle : t1 ≤ s.time) (hin : s.inputs = quiet ++ d :: rest)
    (hwidth : s.cfg.period + s.cfg.wdtTimeout ≤ 2 ^ 32)
    (hdraws : ∀ e ∈ quiet ++ [d], e.powerOn = false ∧ e.gap < s.cfg.wdtTimeout)
    (hbefore : s.time + (quiet.map EnvDraw.gap).sum < t1 + s.cfg.period)
    (hafter : t1 + s.cfg.period ≤ s.time + (quiet.map EnvDraw.gap).sum + d.gap) :
    ∃ early last s', trace (quiet.length + 1) s = some (early ++ [last], s') ∧ early.length = quiet.length
      ∧ (∀ o ∈ early, ∀ id len bytes, Output.tx id len bytes ∉ o)
      ∧ ∃ bytes, Output.tx s.cfg.netId 8 bytes ∈ last := by
  induction quiet generalizing s with
  | nil =>
    obtain ⟨hp, hgap⟩ := hdraws d (List.mem_singleton_self d)
    rw [List.map_nil, List.sum_nil] at hbefore hafter
    have hdue : s.presented.isDue (timeReg (s.time + d.gap)) = true := by
      rw [s.isDue_presented, s.isDue_timeReg_iff hl (by omega) (by omega)]
      omega
    obtain ⟨hstep, -⟩ := hs.step_of_placed hin hp hgap
    obtain ⟨s1, htick⟩ := tick_next (s.time + d.gap) d.cmd d.txOk (s.time + d.gap + d.latency) s.presented
    obtain ⟨more, hout⟩ := tick_out_of_due hdue htick
    refine ⟨[], s1.out, s1, trace_cons (hstep.trans htick) rfl, rfl, fun _ ho => absurd ho List.not_mem_nil,
      s.encodeFrame.frameBytes, ?_⟩
    rw [hout, s.encodeFrame_txRequest_presented]
    exact List.mem_append_right _ List.mem_cons_self
  | cons e quiet ih =>
    obtain ⟨⟨hp, hgap⟩, hdraws⟩ := List.forall_mem_cons.mp hdraws
    rw [List.map_cons, List.sum_cons] at hbefore hafter
    have hquiet : s.isDue (timeReg (s.time + e.gap)) = false := by
      rw [Bool.eq_false_iff, ne_eq, s.isDue_timeReg_iff hl (by omega) (by omega)]
      omega
    obtain ⟨s1, h1, hlast, hnoTx⟩ := hs.exists_quietStep hin hp hgap hquiet
    have hcfg := h1.cfg
    have htime := h1.time
    obtain ⟨early, last, s', htrace, hlength, hsilent, hsent⟩ := ih s1 h1.inv (hlast.trans hl) (by omega) h1.inputs
      (by rwa [hcfg]) (by rwa [hcfg]) (by rw [hcfg]; omega) (by rw [hcfg]; omega)
    exact ⟨s1.out :: early, last, s', trace_cons h1.step_eq htrace, congrArg (· + 1) hlength,
      List.forall_mem_cons.mpr ⟨hnoTx, hsilent⟩, hcfg ▸ hsent⟩

end Sys2Proof.Machine
end

section
/-! SUPPORT. The statements of 43_scheduler.md section 4 on runs of ticks settled. -/

namespace Sys2Proof.Machine

/-- Settles O45, by induction on the failing draws. -/
theorem oneRestartPerFaultEpisode : Obligations.OneRestartPerFaultEpisode :=
  fun s ds rest hs hl hin hlen hds => trace_of_failing_draws ds rest s hs hl hin hlen hds

/-- Settles O46: the success sets `FAILCNT` to 0, and the ticks after it are fewer than an episode needs. -/
theorem successResetsTheFailureCount : Obligations.SuccessResetsTheFailureCount := by
  intro s d ds rest hs hin hp hok hdue hgap hlen hds
  obtain ⟨s1, h1, -⟩ := hs.exists_healthyStep_below hin hp hgap fun hfailed =>
    absurd (hfailed.symm.trans hok) Bool.false_ne_true
  have hzero : s1.failcnt = 0 := by
    rw [h1.failcnt, hok, State.schedulerPhase_of_success _ ((s.isDue_presented _).trans hdue)]
  have hcount : s1.failcnt.toNat = 0 := congrArg BitVec.toNat hzero
  obtain ⟨outs, s', htrace, hno, hle⟩ := trace_below_threshold ds rest s1 h1.inv h1.inputs (by rw [h1.cfg]; omega)
    (by rwa [h1.cfg])
  exact ⟨s1.out :: outs, s', trace_cons h1.step_eq htrace,
    fun c => List.forall_mem_cons.mpr ⟨h1.no_restart c, hno c⟩, by omega⟩

/-- Settles O47: the run waits from its own present time, and the two bounds on the lateness are arithmetic. -/
theorem nextAttemptComesOnePeriodLater : Obligations.NextAttemptComesOnePeriodLater := by
  intro s quiet d rest hs hl hin hwidth hdraws hbefore hafter
  obtain ⟨early, last, s', htrace, hlength, hsilent, hsent⟩ := trace_until_due quiet d rest s.time s hs hl
    (Nat.le_refl _) hin hwidth hdraws (by omega) (by omega)
  exact ⟨early, last, s', htrace, hlength, hsilent, hsent, by omega, by omega⟩

end Sys2Proof.Machine
end
